-- ==== Sys2Proof/Word.lean ====
section
/-! DEFINITION. The bit-vector types the spec's registers and words have (00_scope.md R8, R10; 30_encoding.md R80, R88). -/

namespace Sys2Proof

/-- A timestamp or an interval in microseconds, counted modulo 2^32 (R8, R14). -/
abbrev Time := BitVec 32

/-- A classified duration, or a nominal length, in microseconds (R8, R14). -/
abbrev Duration := BitVec 16

/-- One operation as the agents issue it (R80). -/
abbrev CommandWord := BitVec 64

/-- One answer to the consumer (R88). -/
abbrev ResponseWord := BitVec 64

end Sys2Proof
end

