-- ==== Sys2Proof/Syntax.lean ====
section
/-! DEFINITION. The six operations of the block, one constructor per row of spec/opcode_table.json (00_scope.md R2; 30_encoding.md R81 to R83). -/

namespace Sys2Proof

/-- The operations. Every operand is the encoded field itself, at the field's own width (R83). -/
inductive Instr where
  /-- EDGE: one transition of the receiver line, at timestamp `ts`; issued by the capture agent. -/
  | edge (ts : Time)
  /-- AVAILABLE (AVAIL): is a result pending; issued by the consumer. -/
  | avail
  /-- READ: the published result, clearing NEW; issued by the consumer. -/
  | read
  /-- SEND: emit the envelope of `(sel, addr, cmd)`; issued by the consumer.
  `sel` is any 7-bit value: an unsupported one is a valid word that faults when executed (R86). -/
  | send (sel : BitVec 7) (addr : BitVec 16) (cmd : BitVec 32)
  /-- TX_DONE (TXDONE): the envelope has ended; a step of the transmitter. -/
  | txdone
  /-- RESET: the power cycle; a step of the host. -/
  | reset
  deriving DecidableEq, Repr

end Sys2Proof
end

