-- ==== Sys2Proof/Decode.lean ====
section
/-! DEFINITION. Command words to operations and back (30_encoding.md R80 to R86). -/

namespace Sys2Proof

/-- Why a command word spells no operation: the verdict `invalid` of R85, by its two causes. -/
inductive DecodeError where
  /-- `OP` is 0x0 or in 0x6 to 0xE. -/
  | reservedOpcode (op : BitVec 4)
  /-- A bit that the operation's layout does not assign is 1. -/
  | reservedBits (w : CommandWord)
  deriving DecidableEq, Repr

/-- `OP = W[3:0]` (R80). -/
def opField (w : CommandWord) : BitVec 4 := w.extractLsb' 0 4

/-- The 60-bit payload `W[63:4]` (R80). -/
def payload (w : CommandWord) : BitVec 60 := w.extractLsb' 4 60

/-- EDGE's `TS = W[35:4]` (R82). -/
def tsField (w : CommandWord) : Time := w.extractLsb' 4 32

/-- EDGE's reserved bits `W[63:36]` (R82). -/
def edgeReserved (w : CommandWord) : BitVec 28 := w.extractLsb' 36 28

/-- SEND's `SEL = W[10:4]` (R82). -/
def selField (w : CommandWord) : BitVec 7 := w.extractLsb' 4 7

/-- SEND's `ADDR = W[26:11]` (R82). -/
def addrField (w : CommandWord) : BitVec 16 := w.extractLsb' 11 16

/-- SEND's `CMD = W[58:27]` (R82). -/
def cmdField (w : CommandWord) : BitVec 32 := w.extractLsb' 27 32

/-- SEND's reserved bits `W[63:59]` (R82). -/
def sendReserved (w : CommandWord) : BitVec 5 := w.extractLsb' 59 5

/-- The operation `i`, if the word's reserved bits are all 0 (R82, R85). -/
def ifReservedZero (w : CommandWord) (zero : Bool) (i : Instr) : Except DecodeError Instr :=
  if zero then .ok i else .error (.reservedBits w)

/-- The operation a command word spells; total, refusing every invalid word (R81, R82, R85). -/
def decode (w : CommandWord) : Except DecodeError Instr :=
  match (opField w).toNat with
  | 0x1 => ifReservedZero w (edgeReserved w == 0#28) (.edge (tsField w))
  | 0x2 => ifReservedZero w (payload w == 0#60) .avail
  | 0x3 => ifReservedZero w (payload w == 0#60) .read
  | 0x4 => ifReservedZero w (sendReserved w == 0#5) (.send (selField w) (addrField w) (cmdField w))
  | 0x5 => ifReservedZero w (payload w == 0#60) .txdone
  | 0xF => ifReservedZero w (payload w == 0#60) .reset
  | _ => .error (.reservedOpcode (opField w))

/-- The command word of an operation, reserved bits 0 (R82, R89). -/
def encode : Instr → CommandWord
  | .edge ts => 0#28 ++ ts ++ 0x1#4
  | .avail => 0#60 ++ 0x2#4
  | .read => 0#60 ++ 0x3#4
  | .send sel addr cmd => 0#5 ++ cmd ++ addr ++ sel ++ 0x4#4
  | .txdone => 0#60 ++ 0x5#4
  | .reset => 0#60 ++ 0xF#4

/-- The command word numbered as spec/opcode_table.json numbers its bits: one 64-bit word, exchanged whole (R66), every bit above `nbits` 0. -/
def tableWord (nbits w : Nat) : CommandWord :=
  BitVec.ofNat 64 (w % 2 ^ nbits)

/-- What the decoder reads from an instruction whose bits are `w`. -/
def decodeTableWord (nbits w : Nat) : Option Instr :=
  (decode (tableWord nbits w)).toOption

end Sys2Proof
end

