-- ==== Sys2Proof/Config.lean ====
section
/-! DEFINITION. The block's static parameters (00_scope.md R8; 10_state.md R41 to R45; 41_decoders.md R112) and the protocol tags they range over (30_encoding.md R84). No operation writes a parameter. -/

namespace Sys2Proof

/-- The source's closed enumeration of protocols (R3, R84). -/
inductive Tag where
  | noProtocol | user | nec | necExtended | necRepeat | panasonic | sony8 | sony12 | sony15 | sony20
  deriving DecidableEq, Repr

/-- The three timing families P of `TIMING[P]` (R8). -/
inductive Proto where
  | nec | pan | sony
  deriving DecidableEq, Repr

/-- Which half of a bit carries its value: the space (DIST) or the mark (WIDTH) (R110). -/
inductive Kind where
  | dist | width
  deriving DecidableEq, Repr

/-- A closed range of durations (R111). -/
structure Window where
  lo : Duration
  hi : Duration
  deriving DecidableEq, Repr

/-- A nominal length, sent by the transmitter, and the window a decoder accepts for it (R112). -/
structure Pulse where
  nominal : Duration
  window : Window
  deriving DecidableEq, Repr

/-- One timing table `TIMING[P]` (R112), but for the NEC-only repeat space, which is a field of `Config`. -/
structure Timing where
  /-- `LM`, `W_LM`. -/
  leadMark : Pulse
  /-- `LS`, `W_LS`. -/
  leadSpace : Pulse
  /-- The half of a bit that carries no value: `M`, `W_M` in a DIST table, `S`, `W_S` in a WIDTH table. -/
  half : Pulse
  /-- `ZERO`: the value-carrying half of a 0. -/
  zero : Duration
  /-- `ONE`: the value-carrying half of a 1. -/
  one : Duration
  /-- `BIT_LO`, `BIT_MID`, `BIT_HI`. -/
  bitLo : Duration
  bitMid : Duration
  bitHi : Duration
  /-- `TO`. -/
  timeout : Duration
  deriving DecidableEq, Repr

/-- The static configuration, the read-only constants of 10_state.md section 6 (R41 to R45). -/
structure Config where
  /-- `ENABLE[15:0]` as given; it is read through `Config.ENABLE`, which holds the hard-wired bits at 0 (R41). -/
  enable : BitVec 16
  /-- `DEBOUNCE[31:0]` (R42). -/
  debounce : Time
  /-- `NEC_REPEAT_WINDOW[31:0]` (R43). -/
  necRepeatWindow : Time
  /-- `TIMING[NEC]` (R44, R114). -/
  nec : Timing
  /-- `RS`, `W_RS` of `TIMING[NEC]` (R112, R114). -/
  necRepeatSpace : Pulse
  /-- `TIMING[PAN]` (R44, R115). -/
  pan : Timing
  /-- `TIMING[SONY]` (R44, R115). -/
  sony : Timing
  /-- `TR[NEC]`, `TR[PAN]`, `TR[SONY]` (R45, R193). -/
  trailNec : Duration
  trailPan : Duration
  trailSony : Duration
  /-- `CARRIER_HZ[NEC]`, `CARRIER_HZ[PAN]`, `CARRIER_HZ[SONY]` (R45, R193). -/
  carrierNec : Nat
  carrierPan : Nat
  carrierSony : Nat
  /-- `DUTY_NUM`, `DUTY_DEN` (R45, R193). -/
  dutyNum : Nat
  dutyDen : Nat
  deriving DecidableEq, Repr

end Sys2Proof
end

