-- ==== Sys2Proof/Machine/Params.lean ====
section
/-! DEFINITION. Reading the configuration and the tags: tag numbers (30_encoding.md R84), the ENABLE register (10_state.md R41), the per-protocol tables, and the default values the spec gives (00_scope.md R8; 41_decoders.md R113 to R115; 44_transmit.md R193). -/

namespace Sys2Proof

/-- The tag's number (R84). -/
def Tag.code : Tag → BitVec 7
  | .noProtocol => 0x00#7
  | .user => 0x01#7
  | .nec => 0x02#7
  | .necExtended => 0x03#7
  | .necRepeat => 0x04#7
  | .panasonic => 0x05#7
  | .sony8 => 0x06#7
  | .sony12 => 0x07#7
  | .sony15 => 0x08#7
  | .sony20 => 0x09#7

/-- The tag with a given number; `none` for the reserved numbers 0x0A to 0x7F (R84). -/
def Tag.ofCode (v : BitVec 7) : Option Tag :=
  match v.toNat with
  | 0 => some .noProtocol
  | 1 => some .user
  | 2 => some .nec
  | 3 => some .necExtended
  | 4 => some .necRepeat
  | 5 => some .panasonic
  | 6 => some .sony8
  | 7 => some .sony12
  | 8 => some .sony15
  | 9 => some .sony20
  | _ => none

/-- The ENABLE register: bits 2 to 9 as configured, bits 0, 1 and 10 to 15 hard-wired to 0 (R41). -/
def Config.ENABLE (c : Config) : BitVec 16 :=
  c.enable &&& 0x03FC#16

/-- "tag in ENABLED": bit `t` of ENABLE, for the tag with value `t` (R41). -/
def Config.tagEnabled (c : Config) (t : Tag) : Bool :=
  c.ENABLE.getLsbD t.code.toNat

/-- Instance NEC is enabled iff any NEC-family tag is (R41). -/
def Config.necEnabled (c : Config) : Bool :=
  c.tagEnabled .nec || c.tagEnabled .necExtended || c.tagEnabled .necRepeat

/-- DIST for NEC and Panasonic, WIDTH for Sony (R110, R112). -/
def Proto.kind : Proto → Kind
  | .nec => .dist
  | .pan => .dist
  | .sony => .width

/-- `TIMING[P]` (R44). -/
def Config.timing (c : Config) : Proto → Timing
  | .nec => c.nec
  | .pan => c.pan
  | .sony => c.sony

/-- `TR[P]` (R193). -/
def Config.trail (c : Config) : Proto → Duration
  | .nec => c.trailNec
  | .pan => c.trailPan
  | .sony => c.trailSony

/-- `CARRIER_HZ[P]` (R193). -/
def Config.carrierHz (c : Config) : Proto → Nat
  | .nec => c.carrierNec
  | .pan => c.carrierPan
  | .sony => c.carrierSony

/-- `in(d, W)` (R12, R111). -/
def Window.contains (w : Window) (d : Duration) : Bool :=
  decide (w.lo ≤ d) && decide (d ≤ w.hi)

/-- `win(L)`: plus or minus a quarter of the nominal length, rounded down (R113).
An upper bound above 65535 wraps below the lower one, so R9(2) refuses the window, as it does the bound itself. -/
def Window.around (len : Duration) : Window where
  lo := len - len / 4
  hi := len + len / 4

/-- A nominal length with its default window (R113). -/
def Pulse.around (len : Duration) : Pulse where
  nominal := len
  window := Window.around len

/-- `floor((ZERO + ONE) / 2)`, the sum taken as a natural number: it can exceed 16 bits, and the midpoint cannot (R113). -/
def midpoint (zero one : Duration) : Duration :=
  BitVec.ofNat 16 ((zero.toNat + one.toNat) / 2)

/-- A table of nominal lengths with the default windows, bit bounds and timeout of R113 and R116. -/
def Timing.around (leadMark leadSpace half zero one : Duration) : Timing where
  leadMark := Pulse.around leadMark
  leadSpace := Pulse.around leadSpace
  half := Pulse.around half
  zero := zero
  one := one
  bitLo := zero - zero / 4
  bitMid := midpoint zero one
  bitHi := one + one / 4
  timeout := 65535#16

/-- The default configuration for a given ENABLE value (R8, R114, R115, R193). ENABLED itself is OPEN (R8) and has no default. -/
def Config.standard (enable : BitVec 16) : Config where
  enable := enable
  debounce := 300000#32
  necRepeatWindow := 300000#32
  nec := Timing.around 9000#16 4500#16 560#16 560#16 1690#16
  necRepeatSpace := Pulse.around 2250#16
  pan := Timing.around 3456#16 1728#16 432#16 432#16 1296#16
  sony := Timing.around 2400#16 600#16 600#16 600#16 1200#16
  trailNec := 560#16
  trailPan := 432#16
  trailSony := 600#16
  carrierNec := 38000
  carrierPan := 37000
  carrierSony := 40000
  dutyNum := 1
  dutyDen := 2

/-- The configuration `State.reset` is instantiated with: all eight decodable tags.
DESIGN CHOICE, unsafe: ENABLED is an OPEN parameter without a default (R8, D19); notes/assumptions/6.md. -/
def Config.atReset : Config :=
  Config.standard 0x03FC#16

end Sys2Proof
end

