-- ==== Sys2Proof/Machine/State.lean ====
section
/-! DEFINITION. The state of the block as plain data (10_state.md R20 to R48), the reasons a step can stop (60_exceptions.md R222, R223, R225), and the state after power-on (70_reset_and_hazards.md R251). -/

namespace Sys2Proof.Machine

/-- The sticky fault of the model (R40, R222). -/
inductive Fault where
  /-- Code 1, `TxUnsupported`: raised by SEND when SEL is NO_PROTOCOL, USER or a reserved tag; records SEL.
  Every operation answers with it from then on, since a fault is sticky (R224).
  Safe: the spec gives such a SEND no output, and a faulted run refutes any claim about it. -/
  | txUnsupported (sel : BitVec 7)
  deriving DecidableEq, Repr

/-- Why the model gives a step no meaning. A refused step changes no state (R223). -/
inductive Refusal where
  /-- An instruction with no meaning yet, rejected by name in exec; no arm of this model uses it. Safe. -/
  | notModelled (mnemonic : String)
  /-- Raised by step on an invalid command word (R85, R223). Safe: the trace is outside the model. -/
  | invalidWord (reason : DecodeError)
  /-- Raised by step when the configuration is not well formed: the block is not instantiated, and no run exists (R9, R225). Safe. -/
  | badConfiguration
  /-- Raised by step when an agent holds a word of an operation it does not issue (R81, R87, R234).
  DEDUCED, safe: no such step is in the spec; notes/assumptions/7.md. -/
  | notOwner (w : CommandWord)
  deriving DecidableEq, Repr

/-- The agents, and the host (R17). -/
inductive Agent where
  | capture | consumer | transmitter | host
  deriving DecidableEq, Repr

/-- The FSM states of a decoder instance (R34); `FsmState.code` in Machine/Operands.lean gives their two bits. -/
inductive FsmState where
  | idle | lead | mark | space
  deriving DecidableEq, Repr

/-- One decoder instance X with `N[X] = n`: `X.ST`, `X.CNT[5:0]`, `X.BUF[n-1:0]` (R34 to R36). -/
structure Decoder (n : Nat) where
  st : FsmState
  cnt : BitVec 6
  buf : BitVec n
  deriving DecidableEq, Repr

/-- `IDLE`, `CNT = 0`, `BUF = 0`: the reset value of an instance (R48), and what `goIdle` leaves (R117). -/
def Decoder.idle {n : Nat} : Decoder n where
  st := .idle
  cnt := 0#6
  buf := 0#n

/-- The NEC repeat memory `REP_VALID`, `REP_ADDR`, `REP_CMD`, `REP_TIME` (R38). -/
structure RepeatMemory where
  valid : Bool
  addr : BitVec 16
  cmd : BitVec 8
  time : Time
  deriving DecidableEq, Repr

/-- All four registers 0 (R48). -/
def RepeatMemory.cleared : RepeatMemory where
  valid := false
  addr := 0#16
  cmd := 0#8
  time := 0#32

/-- The level of an envelope segment (R191). -/
inductive Level where
  | mark | space
  deriving DecidableEq, Repr

/-- One segment `(lvl, L)` of an envelope, `L` in microseconds (R191). -/
structure Segment where
  level : Level
  length : Duration
  deriving DecidableEq, Repr

/-- What one SEND emits: the envelope, and the protocol whose carrier modulates its marks (R192, R199, R200). -/
structure Transmission where
  proto : Proto
  segments : List Segment
  deriving DecidableEq, Repr

/-- The output events (R13, R250). -/
inductive TxEvent where
  /-- `Tx(seq)`. -/
  | tx (t : Transmission)
  /-- `TxAbort`: the envelope being emitted is cut off. -/
  | abort
  deriving DecidableEq, Repr

/-- The command words each agent has still to issue, in that agent's own order (R17, R67).
DESIGN CHOICE of the model; notes/assumptions/1.md. -/
structure Inbox where
  capture : List CommandWord
  consumer : List CommandWord
  transmitter : List CommandWord
  host : List CommandWord
  deriving DecidableEq, Repr

/-- No words. -/
def Inbox.empty : Inbox where
  capture := []
  consumer := []
  transmitter := []
  host := []

/-- The state tuple of R20, the output pin, the static configuration it is parameterised by, and the model's own record of what passes the interface. -/
structure State where
  /-- The static configuration (R8, R41 to R45); no operation writes it. -/
  config : Config
  /-- `LAST_EDGE[31:0]` (R23). -/
  lastEdge : Time
  /-- `LAST_EVENT[31:0]` (R24). -/
  lastEvent : Time
  /-- `PROTO[7:0]`: bit 7 is NEW, bits 6:0 are TAG (R30). -/
  proto : BitVec 8
  /-- `ADDR[15:0]` (R31). -/
  addr : BitVec 16
  /-- `CMD[31:0]` (R31). -/
  cmd : BitVec 32
  /-- The six decoder instances (R33). -/
  nec : Decoder 32
  pan : Decoder 48
  sony8 : Decoder 8
  sony12 : Decoder 12
  sony15 : Decoder 15
  sony20 : Decoder 20
  /-- `REP_*` (R38). -/
  rep : RepeatMemory
  /-- `TX_BUSY` (R39). -/
  txBusy : Bool
  /-- `IR_OUT` (R39, R199): `none` is low; `some t` is the envelope being emitted on it. -/
  irOut : Option Transmission
  /-- `FAULT`: clear, or set with its reason (R40). -/
  fault : Option Fault
  /-- The response words given so far, oldest first (R88, R270). -/
  responses : List ResponseWord
  /-- The output events so far, oldest first (R199, R250, R270). -/
  txEvents : List TxEvent
  /-- The words the agents have still to issue (R17). -/
  inbox : Inbox
  /-- Which agent moves next, then next, ...: the interleaving of the run (R67). -/
  turns : List Agent
  deriving DecidableEq, Repr

/-- Power-on with a given configuration: the table of R48, FAULT clear (R251), nothing issued, nothing recorded. -/
def State.powerOn (config : Config) : State where
  config := config
  lastEdge := 0#32
  lastEvent := 0#32
  proto := 0x00#8
  addr := 0x0000#16
  cmd := 0x00000000#32
  nec := Decoder.idle
  pan := Decoder.idle
  sony8 := Decoder.idle
  sony12 := Decoder.idle
  sony15 := Decoder.idle
  sony20 := Decoder.idle
  rep := RepeatMemory.cleared
  txBusy := false
  irOut := none
  fault := none
  responses := []
  txEvents := []
  inbox := Inbox.empty
  turns := []

/-- The machine right after reset (R251), with the model's choice of the OPEN parameter ENABLED (notes/assumptions/6.md). -/
def State.reset : State := State.powerOn Config.atReset

end Sys2Proof.Machine
end

