-- ==== Sys2Proof/Machine/Operands.lean ====
section
/-! DEFINITION. The operand and register forms: the encoding of `X.ST` (10_state.md R34), modulo-2^32 time (00_scope.md R11), response words (30_encoding.md R88), the bit lists of a frame (44_transmit.md R194 to R197), and bit writes into a decoder's buffer (10_state.md R36). -/

namespace Sys2Proof.Machine

/-- The encoding of the FSM states in `X.ST[1:0]` (R34). -/
def FsmState.code : FsmState → BitVec 2
  | .idle => 0#2
  | .lead => 1#2
  | .mark => 2#2
  | .space => 3#2

/-- The FSM state that a value of `X.ST[1:0]` encodes; all four values are in use (R34). -/
def FsmState.ofCode (v : BitVec 2) : FsmState :=
  match v.toNat with
  | 0 => .idle
  | 1 => .lead
  | 2 => .mark
  | _ => .space

/-- The register `X.ST[1:0]` of an instance, as its two bits (R34). -/
def Decoder.stBits {n : Nat} (x : Decoder n) : BitVec 2 := x.st.code

/-- `sub32(a, b) = (a - b) mod 2^32` (R11). -/
def sub32 (a b : Time) : Time := a - b

/-- AVAILABLE's response: `Rsp[0] = PROTO[7]`, the other bits 0 (R88, R180). -/
def availResponse (proto : BitVec 8) : ResponseWord :=
  0#63 ++ proto.extractLsb' 7 1

/-- READ's response: `{8'b0, CMD, ADDR, 1'b0, PROTO[6:0]}` (R88, R181). -/
def readResponse (proto : BitVec 8) (addr : BitVec 16) (cmd : BitVec 32) : ResponseWord :=
  0#8 ++ cmd ++ addr ++ 0#1 ++ proto.extractLsb' 0 7

/-- `PROTO` as a publication writes it: NEW = 1 and the tag, `0x80 | tag` (R168). -/
def publishedProto (tag : Tag) : BitVec 8 :=
  1#1 ++ tag.code

/-- `x[i..i+len-1]`: the bits of a field in ascending order (R194 to R197). -/
def bitsFrom {n : Nat} (x : BitVec n) (i len : Nat) : List Bool :=
  (List.range' i len).map fun k => x.getLsbD k

/-- `BUF[i] <- b`, the other bits unchanged; an index outside the buffer writes nothing (R119). -/
def writeBit {n : Nat} (buf : BitVec n) (i : Nat) (b : Bool) : BitVec n :=
  if b then buf ||| (1#n <<< i) else buf &&& ~~~(1#n <<< i)

end Sys2Proof.Machine
end

