-- ==== Sys2Proof/Machine/Flags.lean ====
section
/-! DEFINITION. The flags of 10_state.md R46: NEW (`PROTO[7]`), TX_BUSY, REP_VALID and FAULT, each read and written in one place. There are no condition codes. -/

namespace Sys2Proof.Machine

/-- `NEW`, the pending bit `PROTO[7]` (R30). -/
def State.isNew (s : State) : Bool := s.proto.getLsbD 7

/-- `TAG`, `PROTO[6:0]` (R30). -/
def State.tag (s : State) : BitVec 7 := s.proto.extractLsb' 0 7

/-- `PROTO[7] <- 0`, TAG unchanged (R181). -/
def State.clearNew (s : State) : State :=
  { s with proto := 0#1 ++ s.tag }

/-- `TX_BUSY <- 1` (R190). -/
def State.setBusy (s : State) : State := { s with txBusy := true }

/-- `TX_BUSY <- 0` (R203). -/
def State.clearBusy (s : State) : State := { s with txBusy := false }

/-- `REP_VALID <- 1` with the three registers written beside it (R38, R130). -/
def RepeatMemory.store (addr : BitVec 16) (cmd : BitVec 8) (now : Time) : RepeatMemory where
  valid := true
  addr := addr
  cmd := cmd
  time := now

/-- `FAULT <- reason` (R13, R222). -/
def State.setFault (f : Fault) (s : State) : State := { s with fault := some f }

/-- The code recorded beside the reason (R222). -/
def Fault.code : Fault → Nat
  | .txUnsupported _ => 1

end Sys2Proof.Machine
end

