-- ==== Sys2Proof/Machine/Ops.lean ====
section
/-! DEFINITION. The named operations over the registers and the interface that the meanings share: when an operation may run (20_memory.md R70), raising the fault (60_exceptions.md R222, R224), responses and output events (00_scope.md R13), and the agents' words and turns (00_scope.md R17). The block takes no exception and returns from none (60_exceptions.md R221, R231, R232): `raiseFault` stands where another machine would enter a handler. -/

namespace Sys2Proof.Machine

/-- The outcome of one operation of this block. -/
abbrev Result := Host.Outcome State Fault Refusal

/-- `raise Fault(reason)`: FAULT is set, and nothing else changes (R13, R222, R231). -/
def raiseFault (f : Fault) (s : State) : Result :=
  .next (s.setFault f)

/-- Runs an operation only while FAULT is clear: once it is set no operation is enabled, and the run is faulted for good (R224).
DESIGN CHOICE: the stop is the outcome `fault` with the recorded reason; notes/assumptions/3.md. -/
def whileUnfaulted (s : State) (op : Result) : Result :=
  match s.fault with
  | some f => .fault f
  | none => op

/-- An operation that is not enabled has no step: its agent waits, and the block does not change (R87, R226).
`step` keeps the word with its agent; notes/assumptions/2.md. -/
def waits (s : State) : Result := .next s

/-- When each operation is enabled, with FAULT clear (R70). -/
def enabled (i : Instr) (s : State) : Bool :=
  match i with
  | .edge _ => true
  | .avail => true
  | .read => true
  | .send _ _ _ => !s.txBusy
  | .txdone => s.txBusy
  | .reset => true

/-- The agent that issues an operation (R17, R81). -/
def owner : Instr → Agent
  | .edge _ => .capture
  | .avail => .consumer
  | .read => .consumer
  | .send _ _ _ => .consumer
  | .txdone => .transmitter
  | .reset => .host

/-- `return v`: the response to the consumer (R13, R88). -/
def State.respond (rsp : ResponseWord) (s : State) : State :=
  { s with responses := s.responses ++ [rsp] }

/-- Records an output event (R13). -/
def State.emit (e : TxEvent) (s : State) : State :=
  { s with txEvents := s.txEvents ++ [e] }

/-- What `IR_OUT` carries from here on: an envelope, or `none` for low (R199). -/
def State.drive (out : Option Transmission) (s : State) : State :=
  { s with irOut := out }

/-- `LAST_EDGE <- now` (R100). -/
def State.setLastEdge (now : Time) (s : State) : State :=
  { s with lastEdge := now }

/-- The words an agent has still to issue, in order. -/
def Inbox.of (q : Inbox) : Agent → List CommandWord
  | .capture => q.capture
  | .consumer => q.consumer
  | .transmitter => q.transmitter
  | .host => q.host

/-- The queues with one agent's replaced. -/
def Inbox.put (q : Inbox) (a : Agent) (ws : List CommandWord) : Inbox :=
  match a with
  | .capture => { q with capture := ws }
  | .consumer => { q with consumer := ws }
  | .transmitter => { q with transmitter := ws }
  | .host => { q with host := ws }

/-- The turn at the front is over; every word stays where it is. -/
def State.passTurn (s : State) : State :=
  { s with turns := s.turns.tail }

/-- The turn at the front is over and its agent has issued its first word. -/
def State.takeWord (a : Agent) (s : State) : State :=
  { s.passTurn with inbox := s.inbox.put a (s.inbox.of a).tail }

/-- Gives an agent one more word, to issue before all others, and the next turn. -/
def State.deliverNext (a : Agent) (w : CommandWord) (s : State) : State :=
  { s with inbox := s.inbox.put a (w :: s.inbox.of a), turns := a :: s.turns }

/-- The agent a command word belongs to by its OP (R81); an invalid word comes from outside the block, so the host holds it. -/
def wordOwner (w : CommandWord) : Agent :=
  match decode w with
  | .ok i => owner i
  | .error _ => .host

/-- Gives each word of a trace to its owner, in the order of the trace, and sets the turns to the trace's own interleaving (R67, R270).
The words and turns already there come later. -/
def State.loadTrace (ws : List CommandWord) (s : State) : State :=
  ws.foldr (fun w acc => acc.deliverNext (wordOwner w) w) s

end Sys2Proof.Machine
end

