-- ==== Sys2Proof/Machine/Classifier.lean ====
section
/-! DEFINITION. The pulse classifier (40_classifier.md R100 to R105). Its write of LAST_EDGE is made by EDGE (Machine/Edge.lean), before any decoder steps (42_dispatch.md R162). -/

namespace Sys2Proof.Machine

/-- The timeout sentinel (R100, R102). -/
def sentinel : Duration := 0xFFFF#16

/-- The 16-bit duration between `LAST_EDGE` and `now`, saturating at the sentinel (R100). -/
def classify (now lastEdge : Time) : Duration :=
  let delta := sub32 now lastEdge
  if 0xFFFF#32 ≤ delta then sentinel else delta.extractLsb' 0 16

end Sys2Proof.Machine
end

