-- ==== Sys2Proof/Machine/Decoders.lean ====
section
/-! DEFINITION. The protocol decoders: the generic FSM step, bit values, completion, and one assembly rule per instance (41_decoders.md R110 to R156). -/

namespace Sys2Proof.Machine

/-- A completed result `(tag, addr16, cmd32)` (R117). -/
structure Decoded where
  tag : Tag
  addr : BitVec 16
  cmd : BitVec 32
  deriving DecidableEq, Repr

/-- What one FSM step reports, before assembly: nothing, NEC's repeat code, or a full bit buffer. -/
inductive FsmReport (n : Nat) where
  | nothing
  | repeatCode
  | frame (buf : BitVec n)
  deriving DecidableEq, Repr

/-- The value of a duration in the value-carrying half of a bit; at `BIT_MID` it is a 1 (R118). -/
def bitval (t : Timing) (d : Duration) : Option Bool :=
  if t.bitLo ≤ d ∧ d < t.bitMid then some false
  else if t.bitMid ≤ d ∧ d ≤ t.bitHi then some true
  else none

/-- Taking a bit, and completing the frame on the N-th (R119). -/
def takeBit {n : Nat} (t : Timing) (d : Duration) (onward : FsmState) (x : Decoder n) : Decoder n × FsmReport n :=
  match bitval t d with
  | none => (Decoder.idle, .nothing)
  | some b =>
    let buf := writeBit x.buf x.cnt.toNat b
    let cnt := x.cnt + 1#6
    if cnt.toNat = n then (Decoder.idle, .frame buf)
    else ({ st := onward, cnt := cnt, buf := buf }, .nothing)

/-- State LEAD: a lead space, NEC's repeat space, or a mismatch (R123, R124, R125). -/
def leadStep {n : Nat} (t : Timing) (repeatSpace : Option Window) (d : Duration) (x : Decoder n) : Decoder n × FsmReport n :=
  if t.leadSpace.window.contains d then ({ x with st := .mark }, .nothing)
  else if repeatSpace.any (Window.contains · d) then (Decoder.idle, .repeatCode)
  else (Decoder.idle, .nothing)

/-- The half of a bit that carries no value: its length is still checked (R126, R129). -/
def halfStep {n : Nat} (t : Timing) (d : Duration) (onward : FsmState) (x : Decoder n) : Decoder n × FsmReport n :=
  if t.half.window.contains d then ({ x with st := onward }, .nothing) else (Decoder.idle, .nothing)

/-- One step of an instance on one duration, the checks in the spec's order: timeout, lead mark, then the state (R117, R120 to R129). -/
def fsmStep {n : Nat} (kind : Kind) (t : Timing) (repeatSpace : Option Window) (d : Duration) (x : Decoder n) :
    Decoder n × FsmReport n :=
  if t.timeout ≤ d then (Decoder.idle, .nothing)
  else if t.leadMark.window.contains d then ({ st := .lead, cnt := 0#6, buf := 0#n }, .nothing)
  else
    match x.st with
    | .idle => (x, .nothing)
    | .lead => leadStep t repeatSpace d x
    | .mark =>
      match kind with
      | .dist => halfStep t d .space x
      | .width => takeBit t d .space x
    | .space =>
      match kind with
      | .dist => takeBit t d .mark x
      | .width => halfStep t d .mark x

/-- `assemble(NEC, buf, now)`: the command check, the tag by the address check, the repeat memory, the result (R130). -/
def assembleNec (c : Config) (now : Time) (rep : RepeatMemory) (buf : BitVec 32) : RepeatMemory × Option Decoded :=
  let b0 := buf.extractLsb' 0 8
  let b1 := buf.extractLsb' 8 8
  let b2 := buf.extractLsb' 16 8
  let b3 := buf.extractLsb' 24 8
  let addr := buf.extractLsb' 0 16
  let tag := if b1 = ~~~b0 then Tag.nec else Tag.necExtended
  if b3 ≠ ~~~b2 then (rep, none)
  else if !c.tagEnabled tag then (rep, none)
  else (RepeatMemory.store addr b2 now, some { tag := tag, addr := addr, cmd := b2.setWidth 32 })

/-- `necRepeat(now)` (R131). -/
def necRepeat (c : Config) (now : Time) (rep : RepeatMemory) : RepeatMemory × Option Decoded :=
  if c.tagEnabled .necRepeat ∧ rep.valid ∧ sub32 now rep.time < c.necRepeatWindow then
    ({ rep with time := now }, some { tag := .necRepeat, addr := rep.addr, cmd := rep.cmd.setWidth 32 })
  else (rep, none)

/-- What a report of the NEC instance yields, with its effect on the repeat memory (R124, R130). -/
def necResult (c : Config) (now : Time) (rep : RepeatMemory) : FsmReport 32 → RepeatMemory × Option Decoded
  | .nothing => (rep, none)
  | .repeatCode => necRepeat c now rep
  | .frame buf => assembleNec c now rep buf

/-- `assemble(PAN, buf, now)` (R140). -/
def assemblePan (buf : BitVec 48) : Decoded where
  tag := .panasonic
  addr := buf.extractLsb' 0 16
  cmd := buf.extractLsb' 16 32

/-- `assemble(SONY8, buf, now)` (R146). -/
def assembleSony8 (buf : BitVec 8) : Decoded where
  tag := .sony8
  addr := 0x0000#16
  cmd := buf.setWidth 32

/-- `assemble(SONY12, buf, now)` (R147). -/
def assembleSony12 (buf : BitVec 12) : Decoded where
  tag := .sony12
  addr := (buf.extractLsb' 7 5).setWidth 16
  cmd := (buf.extractLsb' 0 7).setWidth 32

/-- `assemble(SONY15, buf, now)` (R148). -/
def assembleSony15 (buf : BitVec 15) : Decoded where
  tag := .sony15
  addr := (buf.extractLsb' 7 8).setWidth 16
  cmd := (buf.extractLsb' 0 7).setWidth 32

/-- `assemble(SONY20, buf, now)`: the extended bits above the seven command bits (R149). -/
def assembleSony20 (buf : BitVec 20) : Decoded where
  tag := .sony20
  addr := (buf.extractLsb' 7 5).setWidth 16
  cmd := (buf.extractLsb' 12 8 ++ buf.extractLsb' 0 7).setWidth 32

/-- What a report yields for an instance whose every full frame is a result (R140, R146 to R149); it has no repeat space, so it reports no repeat code. -/
def plainResult {n : Nat} (assemble : BitVec n → Decoded) : FsmReport n → Option Decoded
  | .nothing => none
  | .repeatCode => none
  | .frame buf => some (assemble buf)

/-- The step of the NEC instance, if it is enabled; a disabled instance is never stepped (R33, R163). -/
def stepNec (c : Config) (now : Time) (d : Duration) (x : Decoder 32) (rep : RepeatMemory) :
    Decoder 32 × RepeatMemory × Option Decoded :=
  if c.necEnabled then
    let moved := fsmStep Proto.nec.kind c.nec (some c.necRepeatSpace.window) d x
    (moved.1, necResult c now rep moved.2)
  else (x, rep, none)

/-- The step of any other instance, if its tag is enabled (R33, R163). -/
def stepPlain {n : Nat} (c : Config) (p : Proto) (tag : Tag) (assemble : BitVec n → Decoded) (d : Duration)
    (x : Decoder n) : Decoder n × Option Decoded :=
  if c.tagEnabled tag then
    let moved := fsmStep p.kind (c.timing p) none d x
    (moved.1, plainResult assemble moved.2)
  else (x, none)

end Sys2Proof.Machine
end

