-- ==== Sys2Proof/Machine/Edge.lean ====
section
/-! DEFINITION. EDGE: the gate, the classifier, the fan-out to the enabled decoders, arbitration, debounce and publication (42_dispatch.md R160 to R173). -/

namespace Sys2Proof.Machine

/-- The gate: an EDGE is dropped while a result is pending or a transmission is in flight (R161). -/
def State.dropsEdge (s : State) : Bool := s.isNew || s.txBusy

/-- The state after every enabled instance has taken one step on the same duration (R163). -/
def fanOut (now : Time) (d : Duration) (s : State) : State :=
  { s with
    nec := (stepNec s.config now d s.nec s.rep).1
    rep := (stepNec s.config now d s.nec s.rep).2.1
    pan := (stepPlain s.config .pan .panasonic assemblePan d s.pan).1
    sony8 := (stepPlain s.config .sony .sony8 assembleSony8 d s.sony8).1
    sony12 := (stepPlain s.config .sony .sony12 assembleSony12 d s.sony12).1
    sony15 := (stepPlain s.config .sony .sony15 assembleSony15 d s.sony15).1
    sony20 := (stepPlain s.config .sony .sony20 assembleSony20 d s.sony20).1 }

/-- The results of that step, highest priority first (R164). -/
def results (now : Time) (d : Duration) (s : State) : List Decoded :=
  [ (stepNec s.config now d s.nec s.rep).2.2,
    (stepPlain s.config .pan .panasonic assemblePan d s.pan).2,
    (stepPlain s.config .sony .sony8 assembleSony8 d s.sony8).2,
    (stepPlain s.config .sony .sony12 assembleSony12 d s.sony12).2,
    (stepPlain s.config .sony .sony15 assembleSony15 d s.sony15).2,
    (stepPlain s.config .sony .sony20 assembleSony20 d s.sony20).2 ].reduceOption

/-- The debounce test; `LAST_EDGE` already equals `now` (R166). -/
def State.suppresses (s : State) : Bool :=
  decide (sub32 s.lastEdge s.lastEvent < s.config.debounce)

/-- Publication: the four writes of one atomic step (R63, R168). -/
def State.publish (r : Decoded) (s : State) : State :=
  { s with
    proto := publishedProto r.tag
    addr := r.addr
    cmd := r.cmd
    lastEvent := s.lastEdge }

/-- Arbitration, debounce, publication: the first result alone is considered; a suppressed one changes nothing further (R165 to R168). -/
def arbitrate (rs : List Decoded) (s : State) : State :=
  match rs with
  | [] => s
  | r :: _ => if s.suppresses then s else s.publish r

/-- An EDGE that is not dropped (R160, R162). -/
def acceptEdge (now : Time) (s : State) : State :=
  let d := classify now s.lastEdge
  let timed := s.setLastEdge now
  arbitrate (results now d timed) (fanOut now d timed)

/-- EDGE (R160). -/
def execEdge (ts : Time) (s : State) : Result :=
  whileUnfaulted s (.next (if s.dropsEdge then s else acceptEdge ts s))

end Sys2Proof.Machine
end

