-- ==== Sys2Proof/Machine/Repository.lean ====
section
/-! DEFINITION. The result repository's two operations, AVAILABLE and READ (43_repository.md R180 to R186). -/

namespace Sys2Proof.Machine

/-- AVAILABLE: answers NEW and writes nothing (R180). -/
def execAvail (s : State) : Result :=
  whileUnfaulted s (.next (s.respond (availResponse s.proto)))

/-- READ: answers the published triple and clears NEW, in one step (R181). -/
def execRead (s : State) : Result :=
  whileUnfaulted s (.next (s.clearNew.respond (readResponse s.proto s.addr s.cmd)))

end Sys2Proof.Machine
end

