-- ==== Sys2Proof/Machine/Reset.lean ====
section
/-! DEFINITION. RESET, the power cycle (70_reset_and_hazards.md R250 to R252). -/

namespace Sys2Proof.Machine

/-- Every register of R20 but FAULT takes its value in R48, and IR_OUT goes low; the configuration and the model's own fields stay (R250, R252). -/
def State.resetRegisters (s : State) : State :=
  { s with
    lastEdge := 0x00000000#32
    lastEvent := 0x00000000#32
    proto := 0x00#8
    addr := 0x0000#16
    cmd := 0x00000000#32
    nec := Decoder.idle
    pan := Decoder.idle
    sony8 := Decoder.idle
    sony12 := Decoder.idle
    sony15 := Decoder.idle
    sony20 := Decoder.idle
    rep := RepeatMemory.cleared
    txBusy := false
    irOut := none }

/-- `if TX_BUSY = 1: emit TxAbort` (R250). -/
def State.abortTx (s : State) : State :=
  if s.txBusy then s.emit .abort else s

/-- RESET (R250). -/
def execReset (s : State) : Result :=
  whileUnfaulted s (.next s.abortTx.resetRegisters)

end Sys2Proof.Machine
end

