-- ==== Sys2Proof/Machine/Transmit.lean ====
section
/-! DEFINITION. The transmit generator: envelopes, SEND and TX_DONE (44_transmit.md R190 to R199, R203 to R206). -/

namespace Sys2Proof.Machine

/-- The mark and space of one bit (R192). -/
def cell (c : Config) (p : Proto) (b : Bool) : List Segment :=
  let t := c.timing p
  let value := if b then t.one else t.zero
  match p.kind with
  | .dist => [⟨.mark, t.half.nominal⟩, ⟨.space, value⟩]
  | .width => [⟨.mark, value⟩, ⟨.space, t.half.nominal⟩]

/-- `frame(P, bits)`: the lead, a cell per bit, the trailing mark (R192). -/
def frame (c : Config) (p : Proto) (bits : List Bool) : Transmission where
  proto := p
  segments :=
    [⟨.mark, (c.timing p).leadMark.nominal⟩, ⟨.space, (c.timing p).leadSpace.nominal⟩] ++
      bits.flatMap (cell c p) ++ [⟨.mark, c.trail p⟩]

/-- The bits of a NEC or NEC_EXTENDED frame: address, command, complement of the command (R194). -/
def necBits (a : BitVec 16) (cmd : BitVec 32) : List Bool :=
  bitsFrom a 0 16 ++ bitsFrom cmd 0 8 ++ bitsFrom (~~~(cmd.extractLsb' 0 8)) 0 8

/-- The bits of a Panasonic frame: address, command (R196). -/
def panBits (a : BitVec 16) (cmd : BitVec 32) : List Bool :=
  bitsFrom a 0 16 ++ bitsFrom cmd 0 32

/-- The bits of the Sony frames, command first (R197). -/
def sony8Bits (cmd : BitVec 32) : List Bool :=
  bitsFrom cmd 0 8

@[inherit_doc sony8Bits]
def sony12Bits (a : BitVec 16) (cmd : BitVec 32) : List Bool :=
  bitsFrom cmd 0 7 ++ bitsFrom a 0 5

@[inherit_doc sony8Bits]
def sony15Bits (a : BitVec 16) (cmd : BitVec 32) : List Bool :=
  bitsFrom cmd 0 7 ++ bitsFrom a 0 8

@[inherit_doc sony8Bits]
def sony20Bits (a : BitVec 16) (cmd : BitVec 32) : List Bool :=
  bitsFrom cmd 0 7 ++ bitsFrom a 0 5 ++ bitsFrom cmd 7 8

/-- The repeat code: lead mark, repeat space, trailing mark (R195). -/
def repeatFrame (c : Config) : Transmission where
  proto := .nec
  segments :=
    [⟨.mark, c.nec.leadMark.nominal⟩, ⟨.space, c.necRepeatSpace.nominal⟩, ⟨.mark, c.trailNec⟩]

/-- `envelope(sel, a, c)` for a tag; `none` for the two tags that have no timing table (R190, R192 to R197). -/
def envelopeOfTag (c : Config) (a : BitVec 16) (cmd : BitVec 32) : Tag → Option Transmission
  | .noProtocol => none
  | .user => none
  | .nec => some (frame c .nec (necBits a cmd))
  | .necExtended => some (frame c .nec (necBits a cmd))
  | .necRepeat => some (repeatFrame c)
  | .panasonic => some (frame c .pan (panBits a cmd))
  | .sony8 => some (frame c .sony (sony8Bits cmd))
  | .sony12 => some (frame c .sony (sony12Bits a cmd))
  | .sony15 => some (frame c .sony (sony15Bits a cmd))
  | .sony20 => some (frame c .sony (sony20Bits a cmd))

/-- `envelope(sel, a, c)` for a SEL field; `none` when SEND does not support it (R84, R190). -/
def envelope (c : Config) (sel : BitVec 7) (a : BitVec 16) (cmd : BitVec 32) : Option Transmission :=
  (Tag.ofCode sel).bind (envelopeOfTag c a cmd)

/-- The length of an envelope in microseconds (R198, R199). -/
def Transmission.duration (t : Transmission) : Nat :=
  (t.segments.map fun g => g.length.toNat).sum

/-- The start of segment `i`, in microseconds after `t_s` (R199). -/
def Transmission.startOf (t : Transmission) (i : Nat) : Nat :=
  ((t.segments.take i).map fun g => g.length.toNat).sum

/-- `TX_BUSY <- 1` and `emit Tx(seq)`: the envelope is on IR_OUT (R190, R199). -/
def State.startTx (t : Transmission) (s : State) : State :=
  (s.setBusy.drive (some t)).emit (.tx t)

/-- SEND: waits while busy, faults on an unsupported selector, else emits the envelope (R190). -/
def execSend (sel : BitVec 7) (addr : BitVec 16) (cmd : BitVec 32) (s : State) : Result :=
  whileUnfaulted s <|
    if s.txBusy then waits s
    else
      match envelope s.config sel addr cmd with
      | none => raiseFault (.txUnsupported sel) s
      | some t => .next (s.startTx t)

/-- TX_DONE: ends the transmission, IR_OUT low; waits while there is none (R203). -/
def execTxdone (s : State) : Result :=
  whileUnfaulted s (if s.txBusy then .next (s.clearBusy.drive none) else waits s)

end Sys2Proof.Machine
end

