-- ==== Sys2Proof/Machine/Dispatch.lean ====
section
/-! DEFINITION. One arm per operation (30_encoding.md R81). -/

namespace Sys2Proof.Machine

def exec (i : Instr) (s : State) : Host.Outcome State Fault Refusal :=
  match i with
  | .edge ts => Sys2Proof.Machine.execEdge ts s
  | .avail => Sys2Proof.Machine.execAvail s
  | .read => Sys2Proof.Machine.execRead s
  | .send sel addr cmd => Sys2Proof.Machine.execSend sel addr cmd s
  | .txdone => Sys2Proof.Machine.execTxdone s
  | .reset => Sys2Proof.Machine.execReset s

end Sys2Proof.Machine
end

