-- ==== Sys2Proof/WellFormed.lean ====
section
/-! DEFINITION. The well-formedness of a configuration, check by check (00_scope.md R9). An `Instr` needs no check: each operand has its field's width (30_encoding.md R83), so every term has a command word. The range check of an assembler line (R89) is in Machine/Assembler.lean. -/

namespace Sys2Proof

/-- R9(2) for one window: `lo <= hi`; the bounds are in 0..65535 by type. -/
def Window.ordered (w : Window) : Bool :=
  decide (w.lo ≤ w.hi)

/-- Two windows share no duration. -/
def Window.disjoint (v w : Window) : Bool :=
  decide (v.hi < w.lo) || decide (w.hi < v.lo)

/-- The range `[BIT_LO, BIT_HI]` of the value-carrying half, tested as a window by `bitval` (R118).
DEDUCED: R9 counts it among the windows; notes/assumptions/12.md. -/
def Timing.bitWindow (t : Timing) : Window where
  lo := t.bitLo
  hi := t.bitHi

/-- The windows of a protocol other than the lead-mark window; `extra` is NEC's repeat-space window (R112). -/
def Timing.otherWindows (t : Timing) (extra : List Window) : List Window :=
  [t.leadSpace.window, t.half.window, t.bitWindow] ++ extra

/-- R9(1): ENABLED is non-empty. -/
def Config.enabledNonempty (c : Config) : Bool :=
  c.ENABLE != 0#16

/-- R9(2) for one protocol. -/
def Timing.windowsOrdered (t : Timing) (extra : List Window) : Bool :=
  (t.leadMark.window :: t.otherWindows extra).all Window.ordered

/-- R9(3) for one protocol: the windows tested in state LEAD (the lead space and, for NEC, the repeat space) are disjoint, and so are the lead-mark window and every other one.
MARK and SPACE each test one window. -/
def Timing.windowsDisjoint (t : Timing) (extra : List Window) : Bool :=
  (t.otherWindows extra).all (Window.disjoint t.leadMark.window) && extra.all (Window.disjoint t.leadSpace.window)

/-- R9(4): `BIT_LO <= BIT_MID <= BIT_HI`. -/
def Timing.bitBoundsOrdered (t : Timing) : Bool :=
  decide (t.bitLo ≤ t.bitMid) && decide (t.bitMid ≤ t.bitHi)

/-- R9(5): `TO` is greater than every window upper bound; it is at most 65535 by type. -/
def Timing.timeoutAbove (t : Timing) (extra : List Window) : Bool :=
  (t.leadMark.window :: t.otherWindows extra).all fun w => decide (w.hi < t.timeout)

/-- R9(2) to R9(5) for one protocol. -/
def Timing.wellFormed (t : Timing) (extra : List Window) : Bool :=
  t.windowsOrdered extra && t.windowsDisjoint extra && t.bitBoundsOrdered && t.timeoutAbove extra

/-- R9(7) for one carrier frequency. -/
def carrierInRange (hz : Nat) : Bool :=
  decide (1 ≤ hz) && decide (hz ≤ 1000000000)

/-- R9(7): the duty fraction is strictly between 0 and 1, and every carrier frequency is in range. -/
def Config.carrierOk (c : Config) : Bool :=
  decide (0 < c.dutyNum) && decide (c.dutyNum < c.dutyDen) &&
    carrierInRange c.carrierNec && carrierInRange c.carrierPan && carrierInRange c.carrierSony

/-- A well-formed configuration (R9). Check (6) holds by construction: `N[X]` is the width of X's buffer, fixed at the value of R8. -/
def Config.wellFormed (c : Config) : Bool :=
  c.enabledNonempty && c.nec.wellFormed [c.necRepeatSpace.window] && c.pan.wellFormed [] &&
    c.sony.wellFormed [] && c.carrierOk

end Sys2Proof
end

