-- ==== Sys2Proof/Machine/Issue.lean ====
section
/-! DEFINITION. What an agent's turn does: its first word is decoded, refused, held back or run (00_scope.md R17; 20_memory.md R67, R70; 60_exceptions.md R223 to R226). -/

namespace Sys2Proof.Machine

/-- Agent `a`, whose turn it is, issues the word `w` at the front of its queue: an invalid word and a word of another agent's operation are refused, an operation that is not enabled waits with its word kept, and an enabled one runs. -/
def issue (a : Agent) (w : CommandWord) (s : State) : Result :=
  match decode w with
  | .error reason => .refused (.invalidWord reason)
  | .ok i =>
    if owner i ≠ a then .refused (.notOwner w)
    else if enabled i s then exec i (s.takeWord a)
    else .next s.passTurn

/-- One turn: with no turn left the block waits (R61), an agent with nothing to issue passes. -/
def runTurn (s : State) : Result :=
  match s.turns with
  | [] => .next s
  | a :: _ =>
    match s.inbox.of a with
    | [] => .next s.passTurn
    | w :: _ => issue a w s

/-- One step of the block: refused while its configuration is not well formed, since it is then not instantiated (R9, R225); stopped once FAULT is set (R224). -/
def advance (s : State) : Result :=
  if s.config.wellFormed then whileUnfaulted s (runTurn s)
  else .refused .badConfiguration

/-- The state in which the very next step issues the instruction with bits `w`: its owner holds the word and has the turn. -/
def deliverTableWord (s : State) (nbits w : Nat) : State :=
  s.deliverNext (wordOwner (tableWord nbits w)) (tableWord nbits w)

end Sys2Proof.Machine
end

