-- ==== Sys2Proof/Machine/Step.lean ====
section
/-! DEFINITION. The step of the machine, and the host's way to place an instruction; both only call Machine/Issue.lean. -/

namespace Sys2Proof.Machine

/-- One step: the next turn of the interleaving (00_scope.md R17, R18). -/
def step (s : State) : Host.Outcome State Fault Refusal := advance s

/-- `s` with the instruction of bits `w` placed so that the next step issues it: the word is given to the agent that owns its operation, and that agent the turn. -/
def State.withFetchWord (s : State) (nbits w : Nat) : State := deliverTableWord s nbits w

end Sys2Proof.Machine
end

