-- ==== Sys2Proof/Machine/Assembler.lean ====
section
/-! DEFINITION. The assembly of operation traces: lines, their words, the pseudo-instructions, and the reading of a line's text (30_encoding.md R89, R90). A line whose value does not fit its field is refused (60_exceptions.md R223). -/

namespace Sys2Proof.Machine

/-- A line of assembly, its numbers as written (R89, R90). -/
inductive AsmLine where
  | edge (ts : Nat)
  | avail
  | read
  | send (tag addr cmd : Nat)
  | txdone
  | reset
  /-- `EDGES <t0>: <d1>, ..., <dk>`. -/
  | edges (t0 : Nat) (ds : List Nat)
  /-- `FRAME <tag>, <addr>, <cmd> @ <t0>`. -/
  | frame (tag addr cmd t0 : Nat)
  /-- `SENDW <tag>, <addr>, <cmd>`. -/
  | sendw (tag addr cmd : Nat)
  deriving DecidableEq, Repr

/-- A number as a field of `n` bits; refused when it does not fit (R89). -/
def fieldOf (n v : Nat) : Option (BitVec n) :=
  if v < 2 ^ n then some (BitVec.ofNat n v) else none

/-- The timestamps `t0, t1, ..., tk` of `EDGES`: `t(i) = (t(i-1) + d(i)) mod 2^32` (R90). -/
def edgeTimes (t0 : Time) : List Time → List Time
  | [] => [t0]
  | d :: ds => t0 :: edgeTimes (t0 + d) ds

/-- The edges of an envelope that starts at `t0`: one at the start of every segment and one at the end of the last (R90). -/
def Transmission.edges (t : Transmission) (t0 : Time) : List Instr :=
  (edgeTimes t0 (t.segments.map fun g => g.length.setWidth 32)).map Instr.edge

/-- SEND with its operands as numbers. -/
def sendOf (tag addr cmd : Nat) : Option Instr := do
  let sel ← fieldOf 7 tag
  let a ← fieldOf 16 addr
  let c ← fieldOf 32 cmd
  return .send sel a c

/-- The operations a line stands for; `none` when it is refused (R89, R90).
`FRAME` of a tag that has no envelope is refused. -/
def AsmLine.expand (c : Config) : AsmLine → Option (List Instr)
  | .edge ts => (fieldOf 32 ts).map fun t => [.edge t]
  | .avail => some [.avail]
  | .read => some [.read]
  | .send tag addr cmd => (sendOf tag addr cmd).map fun i => [i]
  | .txdone => some [.txdone]
  | .reset => some [.reset]
  | .edges t0 ds => do
    let t ← fieldOf 32 t0
    let steps ← ds.mapM (fieldOf 32)
    return (edgeTimes t steps).map Instr.edge
  | .frame tag addr cmd t0 => do
    let sel ← fieldOf 7 tag
    let a ← fieldOf 16 addr
    let m ← fieldOf 32 cmd
    let t ← fieldOf 32 t0
    let tx ← envelope c sel a m
    return tx.edges t
  | .sendw tag addr cmd => (sendOf tag addr cmd).map fun i => [i, .txdone]

/-- The command words of a line (R89). -/
def AsmLine.words (c : Config) (line : AsmLine) : Option (List CommandWord) :=
  (line.expand c).map (List.map encode)

/-- The pieces of a line's text. -/
inductive Token where
  | word (cs : List Char)
  | comma
  | colon
  | atSign
  deriving DecidableEq, Repr

/-- Ends the word read so far, whose characters stand in `acc` last first. -/
def endWord (acc : List Char) (rest : List Token) : List Token :=
  if acc.isEmpty then rest else .word acc.reverse :: rest

/-- The tokens of a line; `;` begins a comment (R89). -/
def tokens : List Char → List Char → List Token
  | [], acc => endWord acc []
  | c :: cs, acc =>
    if c = ';' then endWord acc []
    else if c = ' ' ∨ c = '\t' then endWord acc (tokens cs [])
    else if c = ',' then endWord acc (.comma :: tokens cs [])
    else if c = ':' then endWord acc (.colon :: tokens cs [])
    else if c = '@' then endWord acc (.atSign :: tokens cs [])
    else tokens cs (c :: acc)

/-- The value of a digit in base ten or sixteen. -/
def digitOf (base : Nat) (c : Char) : Option Nat :=
  let v :=
    if '0' ≤ c ∧ c ≤ '9' then c.toNat - 48
    else if 'a' ≤ c ∧ c ≤ 'f' then c.toNat - 87
    else if 'A' ≤ c ∧ c ≤ 'F' then c.toNat - 55
    else base
  if v < base then some v else none

/-- The number a run of digits spells, after `acc`. -/
def digitsFrom (base : Nat) : List Char → Nat → Option Nat
  | [], acc => some acc
  | c :: cs, acc => (digitOf base c).bind fun v => digitsFrom base cs (acc * base + v)

/-- A number: decimal, or hexadecimal with the prefix `0x` (R89). -/
def numberOf : List Char → Option Nat
  | [] => none
  | '0' :: 'x' :: c :: cs => digitsFrom 16 (c :: cs) 0
  | c :: cs => digitsFrom 10 (c :: cs) 0

/-- The tag names of R84. -/
def tagNames : List (List Char × Tag) :=
  [ (['N', 'O', '_', 'P', 'R', 'O', 'T', 'O', 'C', 'O', 'L'], .noProtocol),
    (['U', 'S', 'E', 'R'], .user),
    (['N', 'E', 'C'], .nec),
    (['N', 'E', 'C', '_', 'E', 'X', 'T', 'E', 'N', 'D', 'E', 'D'], .necExtended),
    (['N', 'E', 'C', '_', 'R', 'E', 'P', 'E', 'A', 'T'], .necRepeat),
    (['P', 'A', 'N', 'A', 'S', 'O', 'N', 'I', 'C'], .panasonic),
    (['S', 'O', 'N', 'Y', '8'], .sony8),
    (['S', 'O', 'N', 'Y', '1', '2'], .sony12),
    (['S', 'O', 'N', 'Y', '1', '5'], .sony15),
    (['S', 'O', 'N', 'Y', '2', '0'], .sony20) ]

/-- `<tag>`: a tag name or its number (R89). -/
def tagOperand (cs : List Char) : Option Nat :=
  match tagNames.find? fun e => decide (e.1 = cs) with
  | some e => some e.2.code.toNat
  | none => numberOf cs

/-- Numbers separated by commas. -/
def numbersOf : List Token → Option (List Nat)
  | [.word cs] => (numberOf cs).map fun v => [v]
  | .word cs :: .comma :: rest => do
    let v ← numberOf cs
    let vs ← numbersOf rest
    return v :: vs
  | _ => none

/-- The line with three operands `<tag>, <addr>, <cmd>`. -/
def threeOperands (build : Nat → Nat → Nat → AsmLine) (tag addr cmd : List Char) : Option AsmLine := do
  let t ← tagOperand tag
  let a ← numberOf addr
  let c ← numberOf cmd
  return build t a c

/-- The line a list of tokens spells (R89, R90). -/
def lineOf : List Token → Option AsmLine
  | [.word m] =>
    if m = ['A', 'V', 'A', 'I', 'L'] then some .avail
    else if m = ['R', 'E', 'A', 'D'] then some .read
    else if m = ['T', 'X', 'D', 'O', 'N', 'E'] then some .txdone
    else if m = ['R', 'E', 'S', 'E', 'T'] then some .reset
    else none
  | [.word m, .word ts] =>
    if m = ['E', 'D', 'G', 'E'] then (numberOf ts).map .edge else none
  | [.word m, .word tag, .comma, .word addr, .comma, .word cmd] =>
    if m = ['S', 'E', 'N', 'D'] then threeOperands .send tag addr cmd
    else if m = ['S', 'E', 'N', 'D', 'W'] then threeOperands .sendw tag addr cmd
    else none
  | [.word m, .word tag, .comma, .word addr, .comma, .word cmd, .atSign, .word t0] =>
    if m = ['F', 'R', 'A', 'M', 'E'] then
      (numberOf t0).bind fun t => threeOperands (fun g a c => .frame g a c t) tag addr cmd
    else none
  | .word m :: .word t0 :: .colon :: ds =>
    if m = ['E', 'D', 'G', 'E', 'S'] then do
      let t ← numberOf t0
      let vs ← numbersOf ds
      return .edges t vs
    else none
  | _ => none

/-- The command words of one line of text: none for a blank line or a comment, refused (`none`) when the line is not of the assembly or a value does not fit (R89). -/
def assembleLine (c : Config) (text : List Char) : Option (List CommandWord) :=
  match tokens text [] with
  | [] => some []
  | ts => (lineOf ts).bind (AsmLine.words c)

/-- The command words of a trace, one operation or pseudo-instruction per line (R89, R90). -/
def assemble (c : Config) (lines : List (List Char)) : Option (List CommandWord) :=
  (lines.mapM (assembleLine c)).map List.flatten

end Sys2Proof.Machine
end

