-- ==== Sys2Proof/Machine/Carrier.lean ====
section
/-! DEFINITION. The waveform on IR_OUT: low in a space, the protocol's carrier in a mark (44_transmit.md R199 to R202). Time here is nanoseconds since the start instant `t_s`, which the model does not fix (R199). -/

namespace Sys2Proof.Machine

/-- `PER_NS` (R201). -/
def carrierPeriod (c : Config) (p : Proto) : Nat := 1000000000 / c.carrierHz p

/-- `HIGH_NS` (R201). -/
def carrierHigh (c : Config) (p : Proto) : Nat := carrierPeriod c p * c.dutyNum / c.dutyDen

/-- IR_OUT `ns` nanoseconds after the start of a mark; the phase restarts high at every mark (R201). -/
def markLevel (c : Config) (p : Proto) (ns : Nat) : Bool :=
  decide (ns % carrierPeriod c p < carrierHigh c p)

/-- The number of carrier pulses in a mark of `len` microseconds: `ceil(1000 L / PER_NS)` (R201). -/
def markPulses (c : Config) (p : Proto) (len : Nat) : Nat :=
  (1000 * len + carrierPeriod c p - 1) / carrierPeriod c p

/-- IR_OUT over a list of segments, `ns` after its start: each segment occupies a half-open interval, with no gap, and the output is low after the last (R199 to R201). -/
def levelIn (c : Config) (p : Proto) : List Segment → Nat → Bool
  | [], _ => false
  | g :: rest, ns =>
    if ns < 1000 * g.length.toNat then
      match g.level with
      | .mark => markLevel c p ns
      | .space => false
    else levelIn c p rest (ns - 1000 * g.length.toNat)

/-- The level of the pin IR_OUT, `ns` after the start of what it carries; low when it carries nothing (R39, R200). -/
def State.irLevel (s : State) (ns : Nat) : Bool :=
  match s.irOut with
  | none => false
  | some t => levelIn s.config t.proto t.segments ns

end Sys2Proof.Machine
end

