-- ==== Sys2Proof/Safety.lean ====
section
/-! DEFINITION. What claims about the block are stated in: the invariants of 10_state.md, runs of operations, the end of a run with its observation (70_reset_and_hazards.md R270), and the start premise CleanEntry (R271). -/

namespace Sys2Proof

/-- Protocol P's table is the default one, or none of its tags is enabled: what the round trip of another protocol asks of P's instances (R164, R204). -/
def Config.defaultOrOff (c : Config) : Proto → Bool
  | .nec => decide (c.nec = (Config.standard 0#16).nec) || !c.necEnabled
  | .pan => decide (c.pan = (Config.standard 0#16).pan) || !c.tagEnabled .panasonic
  | .sony => decide (c.sony = (Config.standard 0#16).sony) ||
      [Tag.sony8, .sony12, .sony15, .sony20].all fun u => !c.tagEnabled u

end Sys2Proof

namespace Sys2Proof.Machine

/-- The operations of a list, one after the other, stopping at the first fault or refusal. -/
def execAll : List Instr → State → Result
  | [], s => .next s
  | i :: is, s =>
    match exec i s with
    | .next t => execAll is t
    | .fault r => .fault r
    | .refused r => .refused r

/-- The observation of a finished run (R270). -/
structure Observation where
  responses : List ResponseWord
  txEvents : List TxEvent
  proto : BitVec 8
  addr : BitVec 16
  cmd : BitVec 32
  deriving DecidableEq, Repr

/-- What an observer sees of a state (R270). -/
def State.observation (s : State) : Observation where
  responses := s.responses
  txEvents := s.txEvents
  proto := s.proto
  addr := s.addr
  cmd := s.cmd

/-- The run is over: every word taken, no transmission in flight, FAULT clear; a refused step leaves no state, so no refusal mark is set (R270). -/
def State.runOver (s : State) : Bool :=
  decide (s.inbox = Inbox.empty) && !s.txBusy && s.fault.isNone

/-- `CleanEntry`: the reset table, FAULT clear, no transmission in flight (R271). -/
def State.cleanEntry (s : State) : Bool :=
  decide (s.resetRegisters = s) && s.fault.isNone

/-- No fault has been raised: what every claim about a run presupposes (R224). -/
def State.unfaulted (s : State) : Bool := s.fault.isNone

/-- What holds of an instance between operations: `CNT < N` (R35), the bits at and above `CNT` are 0 (R36), and IDLE and LEAD hold no bits (R37). -/
structure Decoder.Legal {n : Nat} (x : Decoder n) : Prop where
  countInFrame : x.cnt.toNat < n
  restZero : ∀ i, x.cnt.toNat ≤ i → x.buf.getLsbD i = false
  emptyOutside : x.st = .idle ∨ x.st = .lead → x.cnt = 0#6 ∧ x.buf = 0#n

/-- The invariant of the block. -/
structure Inv (s : State) : Prop where
  necLegal : s.nec.Legal
  panLegal : s.pan.Legal
  sony8Legal : s.sony8.Legal
  sony12Legal : s.sony12.Legal
  sony15Legal : s.sony15.Legal
  sony20Legal : s.sony20.Legal
  /-- A disabled instance keeps its reset state (R33). -/
  necDisabled : s.config.necEnabled = false → s.nec = Decoder.idle
  panDisabled : s.config.tagEnabled .panasonic = false → s.pan = Decoder.idle
  sony8Disabled : s.config.tagEnabled .sony8 = false → s.sony8 = Decoder.idle
  sony12Disabled : s.config.tagEnabled .sony12 = false → s.sony12 = Decoder.idle
  sony15Disabled : s.config.tagEnabled .sony15 = false → s.sony15 = Decoder.idle
  sony20Disabled : s.config.tagEnabled .sony20 = false → s.sony20 = Decoder.idle
  /-- Legal TAG values: 2 to 9, or 0 before the first publication, with the reset triple and nothing pending (R30, R182). -/
  tagLegal : (2#7 ≤ s.tag ∧ s.tag ≤ 9#7) ∨ (s.proto = 0#8 ∧ s.addr = 0#16 ∧ s.cmd = 0#32)
  /-- The repeat memory holds its reset values until it is valid (R38). -/
  repeatClear : s.rep.valid = false → s.rep = RepeatMemory.cleared
  /-- IR_OUT carries an envelope exactly while TX_BUSY (R39). -/
  busyEmits : s.txBusy = s.irOut.isSome
  /-- A fault is raised by a SEND, which is enabled only while no transmission is in flight (R70, R222). -/
  faultedIdle : s.fault.isSome = true → s.txBusy = false

/-- The levels of a list of segments alternate (R191). -/
def alternates : List Segment → Bool
  | [] => true
  | [_] => true
  | g :: h :: rest => decide (g.level ≠ h.level) && alternates (h :: rest)

/-- The number of 1 bits of a field (R198). -/
def popcount {n : Nat} (x : BitVec n) : Nat := (bitsFrom x 0 n).count true

end Sys2Proof.Machine
end

