-- ==== Sys2Proof/Certificates/Slice0/Obligations.lean ====
section
/-! DEFINITION. The statements for the provers, in the order of spec/: encoding, the step and its stops, the classifier, the decoders, dispatch, the repository, the transmitter, the carrier, RESET, and the rules over all operations. -/

open Sys2Proof Sys2Proof.Machine

/-! ### Encoding (30_encoding.md) -/

/-- Tier 3. No bit of a command word is dropped: the word of an operation decodes to it, at every value of every operand (R80, R82, R83). -/
def Obligations.DecodeOfEncodeIsTheOperation : Prop :=
  ∀ i : Instr, decode (encode i) = .ok i

/-- Every valid word is the word of the operation it spells (R80, R82). -/
def Obligations.EncodeOfDecodeIsTheWord : Prop :=
  ∀ (w : CommandWord) (i : Instr), decode w = .ok i → encode i = w

/-- R85: the invalid words are those with a reserved opcode or a reserved bit of R82 set, and decoding is total on them. -/
def Obligations.InvalidWordsAreTheReservedOnes : Prop :=
  ∀ w : CommandWord, (∃ e, decode w = .error e) ↔
    (w &&& 0xF#64 = 0x0#64 ∨ (0x6#64 ≤ w &&& 0xF#64 ∧ w &&& 0xF#64 ≤ 0xE#64) ∨
     (w &&& 0xF#64 = 0x1#64 ∧ w >>> 36 ≠ 0#64) ∨
     ((w &&& 0xF#64 = 0x2#64 ∨ w &&& 0xF#64 = 0x3#64 ∨ w &&& 0xF#64 = 0x5#64 ∨ w &&& 0xF#64 = 0xF#64) ∧ w >>> 4 ≠ 0#64) ∨
     (w &&& 0xF#64 = 0x4#64 ∧ w >>> 59 ≠ 0#64))

/-- Words of 95_test_vectors.md section 2.1 (V-E1 to V-E8, V-E15, V-E17, V-E18) decode as they say. -/
def Obligations.SpecWordsDecodeAsTheSpecSays : Prop :=
  decode 0x0000000000F42401#64 = .ok (.edge 1000000#32) ∧
  decode 0x0000000FFFFFFFF1#64 = .ok (.edge 0xFFFFFFFF#32) ∧
  decode 0x0000000000000002#64 = .ok .avail ∧
  decode 0x0000000000000003#64 = .ok .read ∧
  decode 0x00000000D007F824#64 = .ok (.send 0x02#7 0x00FF#16 0x1A#32) ∧
  decode 0x07FFFFFFFFFFF824#64 = .ok (.send 0x02#7 0xFFFF#16 0xFFFFFFFF#32) ∧
  decode 0x0000000000000005#64 = .ok .txdone ∧
  decode 0x000000000000000F#64 = .ok .reset ∧
  decode 0x0000000000000004#64 = .ok (.send 0x00#7 0x0000#16 0#32) ∧
  decode 0x00000000000007F4#64 = .ok (.send 0x7F#7 0x0000#16 0#32) ∧
  decode 0x0000000000000044#64 = .ok (.send 0x04#7 0x0000#16 0#32)

/-- The word of an assembled line: `OP | (TS << 4)`, and `4 | (SEL << 4) | (ADDR << 11) | (CMD << 27)` (the last sentence of R89). -/
def Obligations.EncodingFollowsTheAssemblerFormula : Prop :=
  (∀ ts : Time, encode (.edge ts) = 1#64 ||| (ts.setWidth 64 <<< 4)) ∧
  (∀ (sel : BitVec 7) (addr : BitVec 16) (cmd : BitVec 32),
    encode (.send sel addr cmd) =
      4#64 ||| (sel.setWidth 64 <<< 4) ||| (addr.setWidth 64 <<< 11) ||| (cmd.setWidth 64 <<< 27))

/-! ### The step and its stops (20_memory.md, 60_exceptions.md) -/

/-- When the agent at turn holds a valid word of an operation of its own that is enabled, the step is exec of that operation, on the state whose front turn and front word are taken. Turns and queues are the model's (notes/assumptions/1.md). -/
def Obligations.StepRunsTheDecodedOperation : Prop :=
  ∀ (s : State) (a : Agent) (rest : List Agent) (w : CommandWord) (ws : List CommandWord) (i : Instr),
    s.config.wellFormed = true → s.fault = none → s.turns = a :: rest → s.inbox.of a = w :: ws →
    decode w = .ok i → owner i = a → enabled i s = true →
    step s = exec i { s with turns := rest, inbox := s.inbox.put a ws }

/-- R226: an agent whose next operation is not enabled (a SEND while TX_BUSY = 1, a TX_DONE while TX_BUSY = 0) is stuck: its turn passes, its word stays with it, and no register changes. Turns and queues are the model's (notes/assumptions/1.md, 2.md). -/
def Obligations.StuckAgentKeepsItsWord : Prop :=
  ∀ (s : State) (a : Agent) (rest : List Agent) (w : CommandWord) (ws : List CommandWord) (i : Instr),
    s.config.wellFormed = true → s.fault = none → s.turns = a :: rest → s.inbox.of a = w :: ws →
    decode w = .ok i → owner i = a →
    ((∃ sel addr cmd, i = .send sel addr cmd) ∧ s.txBusy = true ∨ i = .txdone ∧ s.txBusy = false) →
    step s = .next { s with turns := rest }

/-- An invalid word is refused, whichever agent holds it, and so is a word of an operation the agent does not own (R85, R223; the second by notes/assumptions/7.md). -/
def Obligations.StepRefusesInvalidAndForeignWords : Prop :=
  ∀ (s : State) (a : Agent) (rest : List Agent) (w : CommandWord) (ws : List CommandWord),
    s.config.wellFormed = true → s.fault = none → s.turns = a :: rest → s.inbox.of a = w :: ws →
    (∀ e, decode w = .error e → step s = .refused (.invalidWord e)) ∧
    (∀ i, decode w = .ok i → owner i ≠ a → step s = .refused (.notOwner w))

/-- A fault is sticky: with FAULT set no operation runs, RESET included; the stop is the outcome `fault` with the recorded reason (R224; the outcome by notes/assumptions/3.md). -/
def Obligations.FaultIsSticky : Prop :=
  ∀ (s : State) (f : Fault), s.fault = some f →
    (∀ i : Instr, exec i s = .fault f) ∧ (s.config.wellFormed = true → step s = .fault f)

/-- A configuration that breaks R9 is refused before any operation (R225), each check of R9 at one configuration that breaks it alone or first. Two points are the model's choice: that the step answers `badConfiguration`, and does so ahead of FAULT (DESIGN CHOICE, notes/assumptions/5.md), and that the Sony table with BIT_HI = 1800 is ill formed, because the range BIT_LO to BIT_HI counts as a window in R9(3) (DEDUCED, notes/assumptions/12.md). -/
def Obligations.IllFormedConfigurationIsRefused : Prop :=
  (∀ s : State, s.config.wellFormed = false → step s = .refused .badConfiguration) ∧
  (∀ e : BitVec 16, (Config.standard e).wellFormed = true ↔ e &&& 0x03FC#16 ≠ 0#16) ∧
  (∀ e : BitVec 16, ∀ c ∈
    [ { Config.standard e with necRepeatSpace := ⟨2250#16, ⟨2812#16, 1688#16⟩⟩ },
      { Config.standard e with necRepeatSpace := ⟨2250#16, ⟨1688#16, 3375#16⟩⟩ },
      { Config.standard e with sony := { (Config.standard e).sony with bitHi := 1800#16 } },
      { Config.standard e with pan := { (Config.standard e).pan with bitMid := 323#16 } },
      { Config.standard e with nec := { (Config.standard e).nec with timeout := 11250#16 } },
      { Config.standard e with dutyNum := 2 },
      { Config.standard e with carrierSony := 0 } ], c.wellFormed = false)

/-! ### The classifier (40_classifier.md) -/

/-- R101: `d = min(sub32(now, LAST_EDGE), 0xFFFF)`; the sentinel exactly from 65535 on, the elapsed time exactly below. -/
def Obligations.ClassifierSaturates : Prop :=
  ∀ now last : Time,
    (classify now last).toNat = min ((now.toNat + 2 ^ 32 - last.toNat) % 2 ^ 32) 65535 ∧
    (classify now last = 0xFFFF#16 ↔ 65535 ≤ (now.toNat + 2 ^ 32 - last.toNat) % 2 ^ 32)

/-! ### The decoders (41_decoders.md) -/

/-- R118: the value of a duration in the value-carrying half, and the corner cases with the NEC defaults. -/
def Obligations.BitValueOfADuration : Prop :=
  (∀ (t : Timing) (d : Duration),
    (t.bitLo ≤ d → d < t.bitMid → bitval t d = some false) ∧
    (t.bitMid ≤ d → d ≤ t.bitHi → bitval t d = some true) ∧
    (¬(t.bitLo ≤ d ∧ d < t.bitMid) → ¬(t.bitMid ≤ d ∧ d ≤ t.bitHi) → bitval t d = none)) ∧
  (∀ e : BitVec 16, [419#16, 420#16, 1124#16, 1125#16, 2112#16, 2113#16].map (bitval (Config.standard e).nec) =
    [none, some false, some false, some true, some true, none])

/-- R120: in every state a duration at or above `TO` sends the instance to IDLE with CNT = 0 and BUF = 0, and yields nothing. -/
def Obligations.TimeoutSendsAnyStateToIdle : Prop :=
  ∀ (n : Nat) (kind : Kind) (t : Timing) (rs : Option Window) (d : Duration) (x : Decoder n),
    t.timeout ≤ d → fsmStep kind t rs d x = ({ st := .idle, cnt := 0#6, buf := 0#n }, .nothing)

/-- In a well-formed table no duration at or above `TO` fits a window or has a bit value, so that a timeout and a mismatch have the same effect (the consequence R116 draws from R9(5)). -/
def Obligations.TimeoutFitsNoWindow : Prop :=
  ∀ (t : Timing) (extra : List Window) (d : Duration), t.wellFormed extra = true → t.timeout ≤ d →
    t.leadMark.window.contains d = false ∧ t.leadSpace.window.contains d = false ∧
    t.half.window.contains d = false ∧ bitval t d = none ∧ ∀ w ∈ extra, w.contains d = false

/-- R121: below the timeout, a duration in the lead-mark window sends the instance to LEAD and clears CNT and BUF, in every state. -/
def Obligations.LeadMarkRestartsAnyState : Prop :=
  ∀ (n : Nat) (kind : Kind) (t : Timing) (rs : Option Window) (d : Duration) (x : Decoder n),
    d < t.timeout → t.leadMark.window.lo ≤ d → d ≤ t.leadMark.window.hi →
    fsmStep kind t rs d x = ({ st := .lead, cnt := 0#6, buf := 0#n }, .nothing)

/-- The state-specific transitions on a duration that is neither a timeout nor a lead mark: IDLE stays (R122); LEAD goes to MARK on a lead space (R123), reports the repeat code on a repeat space (R124), else goes to IDLE (R125); the half that carries no value is checked (R126, R129); the other half takes a bit (R127, R128). -/
def Obligations.TransitionsOfEachState : Prop :=
  ∀ (n : Nat) (t : Timing) (rs : Option Window) (d : Duration) (x : Decoder n),
    d < t.timeout → ¬(t.leadMark.window.lo ≤ d ∧ d ≤ t.leadMark.window.hi) →
    (∀ kind, x.st = .idle → fsmStep kind t rs d x = (x, .nothing)) ∧
    (∀ kind, x.st = .lead →
      fsmStep kind t rs d x =
        if t.leadSpace.window.lo ≤ d ∧ d ≤ t.leadSpace.window.hi then ({ x with st := .mark }, .nothing)
        else if rs.any (fun w => decide (w.lo ≤ d ∧ d ≤ w.hi)) = true then (Decoder.idle, .repeatCode)
        else (Decoder.idle, .nothing)) ∧
    (x.st = .mark → fsmStep .dist t rs d x =
      if t.half.window.lo ≤ d ∧ d ≤ t.half.window.hi then ({ x with st := .space }, .nothing) else (Decoder.idle, .nothing)) ∧
    (x.st = .space → fsmStep .dist t rs d x = takeBit t d .mark x) ∧
    (x.st = .mark → fsmStep .width t rs d x = takeBit t d .space x) ∧
    (x.st = .space → fsmStep .width t rs d x =
      if t.half.window.lo ≤ d ∧ d ≤ t.half.window.hi then ({ x with st := .mark }, .nothing) else (Decoder.idle, .nothing))

/-- R119, between operations of a legal instance: a mismatch discards the bits; a bit is stored at BUF[CNT] and no other bit changes; before the N-th bit CNT grows by one, and on the N-th the instance is IDLE and its whole buffer is reported. -/
def Obligations.TakingABit : Prop :=
  ∀ (n : Nat) (t : Timing) (d : Duration) (onward : FsmState) (x : Decoder n), n ≤ 48 → x.Legal →
    (bitval t d = none → takeBit t d onward x = (Decoder.idle, .nothing)) ∧
    (∀ b, bitval t d = some b → ∃ buf : BitVec n,
      (∀ j, buf.getLsbD j = if j = x.cnt.toNat then b else x.buf.getLsbD j) ∧
      (x.cnt.toNat + 1 = n → takeBit t d onward x = (Decoder.idle, .frame buf)) ∧
      (x.cnt.toNat + 1 < n → takeBit t d onward x = ({ st := onward, cnt := x.cnt + 1#6, buf := buf }, .nothing) ∧
        (x.cnt + 1#6).toNat = x.cnt.toNat + 1))

/-- R155, over a legal instance: a frame is reported only on the N-th bit, and a repeat code only from LEAD, and the instance is then IDLE. A timeout, in every state, and a duration that is no lead mark and does not fit what its state and kind await, in that state, leave the instance IDLE with no bits and nothing reported: the lead space or repeat space in LEAD, the half without a value in MARK of DIST and SPACE of WIDTH, the half with the value in the other two, anything in IDLE. -/
def Obligations.NoPartialFrameIsSurfaced : Prop :=
  ∀ (n : Nat) (kind : Kind) (t : Timing) (rs : Option Window) (d : Duration) (x : Decoder n), n ≤ 48 → x.Legal →
    (∀ buf, (fsmStep kind t rs d x).2 = .frame buf →
      x.cnt.toNat + 1 = n ∧ (x.st = .mark ∨ x.st = .space) ∧ bitval t d ≠ none ∧ (fsmStep kind t rs d x).1 = Decoder.idle) ∧
    ((fsmStep kind t rs d x).2 = .repeatCode → x.st = .lead ∧ (fsmStep kind t rs d x).1 = Decoder.idle) ∧
    (t.timeout ≤ d → fsmStep kind t rs d x = (Decoder.idle, .nothing)) ∧
    (t.leadMark.window.contains d = false →
      (x.st = .idle → fsmStep kind t rs d x = (Decoder.idle, .nothing)) ∧
      (x.st = .lead → t.leadSpace.window.contains d = false → (∀ w, rs = some w → w.contains d = false) →
        fsmStep kind t rs d x = (Decoder.idle, .nothing)) ∧
      (kind = .dist ∧ x.st = .mark ∨ kind = .width ∧ x.st = .space → t.half.window.contains d = false →
        fsmStep kind t rs d x = (Decoder.idle, .nothing)) ∧
      (kind = .dist ∧ x.st = .space ∨ kind = .width ∧ x.st = .mark → bitval t d = none →
        fsmStep kind t rs d x = (Decoder.idle, .nothing)))

/-- R130: the NEC assembly, its byte fields written as arithmetic on the 32-bit frame. -/
def Obligations.NecAssembly : Prop :=
  ∀ (c : Config) (now : Time) (rep : RepeatMemory) (buf : BitVec 32),
    let b0 := buf.toNat % 256
    let b1 := buf.toNat / 2 ^ 8 % 256
    let b2 := buf.toNat / 2 ^ 16 % 256
    let b3 := buf.toNat / 2 ^ 24
    let tag := if b1 = 255 - b0 then Tag.nec else Tag.necExtended
    (b3 ≠ 255 - b2 → assembleNec c now rep buf = (rep, none)) ∧
    (c.tagEnabled tag = false → assembleNec c now rep buf = (rep, none)) ∧
    (b3 = 255 - b2 → c.tagEnabled tag = true →
      assembleNec c now rep buf =
        ({ valid := true, addr := BitVec.ofNat 16 (b0 + 256 * b1), cmd := BitVec.ofNat 8 b2, time := now },
         some { tag := tag, addr := BitVec.ofNat 16 (b0 + 256 * b1), cmd := BitVec.ofNat 32 b2 }))

/-- R131: the repeat code fires exactly while NEC_REPEAT is enabled, the memory is valid and the window has not passed; it then refreshes REP_TIME, and otherwise the memory is unchanged. -/
def Obligations.NecRepeatFires : Prop :=
  ∀ (c : Config) (now : Time) (rep : RepeatMemory),
    (c.tagEnabled .necRepeat = true → rep.valid = true → now - rep.time < c.necRepeatWindow →
      necRepeat c now rep =
        ({ rep with time := now }, some { tag := .necRepeat, addr := rep.addr, cmd := rep.cmd.setWidth 32 })) ∧
    (c.tagEnabled .necRepeat = false ∨ rep.valid = false ∨ c.necRepeatWindow ≤ now - rep.time →
      necRepeat c now rep = (rep, none))

/-- The Panasonic and Sony assemblies as arithmetic on the frame (R140, R146 to R149), with the examples of R141 and R146 to R149. -/
def Obligations.PanasonicAndSonyAssembly : Prop :=
  (∀ buf : BitVec 48, (assemblePan buf).tag = .panasonic ∧ (assemblePan buf).addr.toNat = buf.toNat % 2 ^ 16 ∧
    (assemblePan buf).cmd.toNat = buf.toNat / 2 ^ 16) ∧
  (∀ buf : BitVec 8, (assembleSony8 buf).tag = .sony8 ∧ (assembleSony8 buf).addr = 0#16 ∧
    (assembleSony8 buf).cmd.toNat = buf.toNat) ∧
  (∀ buf : BitVec 12, (assembleSony12 buf).tag = .sony12 ∧ (assembleSony12 buf).addr.toNat = buf.toNat / 2 ^ 7 ∧
    (assembleSony12 buf).cmd.toNat = buf.toNat % 2 ^ 7) ∧
  (∀ buf : BitVec 15, (assembleSony15 buf).tag = .sony15 ∧ (assembleSony15 buf).addr.toNat = buf.toNat / 2 ^ 7 ∧
    (assembleSony15 buf).cmd.toNat = buf.toNat % 2 ^ 7) ∧
  (∀ buf : BitVec 20, (assembleSony20 buf).tag = .sony20 ∧ (assembleSony20 buf).addr.toNat = buf.toNat / 2 ^ 7 % 2 ^ 5 ∧
    (assembleSony20 buf).cmd.toNat = buf.toNat / 2 ^ 12 * 2 ^ 7 + buf.toNat % 2 ^ 7) ∧
  assemblePan 0x0D00BCB12002#48 = ⟨.panasonic, 0x2002#16, 0x0D00BCB1#32⟩ ∧
  assembleSony8 0x95#8 = ⟨.sony8, 0#16, 0x95#32⟩ ∧
  assembleSony12 0x095#12 = ⟨.sony12, 0x0001#16, 0x15#32⟩ ∧
  assembleSony15 0x3A95#15 = ⟨.sony15, 0x75#16, 0x15#32⟩ ∧
  assembleSony20 0x5A095#20 = ⟨.sony20, 0x0001#16, 0x2D15#32⟩

/-! ### EDGE (42_dispatch.md) -/

/-- R161: while a result is pending or a transmission is in flight, an EDGE changes no state at all. -/
def Obligations.DroppedEdgeChangesNothing : Prop :=
  ∀ (s : State) (ts : Time), s.fault = none → (s.proto.getLsbD 7 = true ∨ s.txBusy = true) →
    exec (.edge ts) s = .next s

/-- EDGE completes in every unfaulted state (R160). One that is dropped changes nothing (R161). One that is not dropped classifies, sets LAST_EDGE and steps every enabled instance exactly once on the same duration, a disabled one not at all (R162, R163), and the repeat memory takes what the report of the NEC instance gives it, whether the result is then published, suppressed or discarded in arbitration (R130, R131, R132, R165). -/
def Obligations.AcceptedEdgeStepsEveryEnabledInstance : Prop :=
  ∀ (s : State) (ts : Time), s.fault = none →
    ∃ t, exec (.edge ts) s = .next t ∧
      (s.proto.getLsbD 7 = true ∨ s.txBusy = true → t = s) ∧
      (s.proto.getLsbD 7 = false → s.txBusy = false →
        t.lastEdge = ts ∧
        t.nec = (if s.config.necEnabled = true then
          (fsmStep .dist s.config.nec (some s.config.necRepeatSpace.window) (classify ts s.lastEdge) s.nec).1 else s.nec) ∧
        t.pan = (if s.config.tagEnabled .panasonic = true then
          (fsmStep .dist s.config.pan none (classify ts s.lastEdge) s.pan).1 else s.pan) ∧
        t.sony8 = (if s.config.tagEnabled .sony8 = true then
          (fsmStep .width s.config.sony none (classify ts s.lastEdge) s.sony8).1 else s.sony8) ∧
        t.sony12 = (if s.config.tagEnabled .sony12 = true then
          (fsmStep .width s.config.sony none (classify ts s.lastEdge) s.sony12).1 else s.sony12) ∧
        t.sony15 = (if s.config.tagEnabled .sony15 = true then
          (fsmStep .width s.config.sony none (classify ts s.lastEdge) s.sony15).1 else s.sony15) ∧
        t.sony20 = (if s.config.tagEnabled .sony20 = true then
          (fsmStep .width s.config.sony none (classify ts s.lastEdge) s.sony20).1 else s.sony20) ∧
        t.rep = (if s.config.necEnabled = true then
          (necResult s.config ts s.rep
            (fsmStep .dist s.config.nec (some s.config.necRepeatSpace.window) (classify ts s.lastEdge) s.nec).2).1
          else s.rep))

/-- The frame of EDGE: the configuration, the transmitter, IR_OUT, FAULT, the responses, the output events, the words and the turns are unchanged (R22, R46, R64, R160). -/
def Obligations.EdgeFrame : Prop :=
  ∀ (s t : State) (ts : Time), exec (.edge ts) s = .next t →
    t.config = s.config ∧ t.txBusy = s.txBusy ∧ t.irOut = s.irOut ∧ t.fault = s.fault ∧
    t.responses = s.responses ∧ t.txEvents = s.txEvents ∧ t.inbox = s.inbox ∧ t.turns = s.turns

/-- Priority, debounce and publication of an EDGE that is not dropped, with `r` the first result in the order NEC, PAN, SONY8, SONY12, SONY15, SONY20 (R164, R165): at or beyond DEBOUNCE it is published (R166, R168), inside it the repository, NEW and LAST_EVENT keep their values (R167), and with no result they do too. -/
def Obligations.FirstResultIsPublishedOrSuppressed : Prop :=
  ∀ (s t : State) (ts : Time), s.proto.getLsbD 7 = false → s.txBusy = false → exec (.edge ts) s = .next t →
    let d := classify ts s.lastEdge
    let first := (stepNec s.config ts d s.nec s.rep).2.2
      <|> (stepPlain s.config .pan .panasonic assemblePan d s.pan).2
      <|> (stepPlain s.config .sony .sony8 assembleSony8 d s.sony8).2
      <|> (stepPlain s.config .sony .sony12 assembleSony12 d s.sony12).2
      <|> (stepPlain s.config .sony .sony15 assembleSony15 d s.sony15).2
      <|> (stepPlain s.config .sony .sony20 assembleSony20 d s.sony20).2
    (∀ r, first = some r → s.config.debounce ≤ ts - s.lastEvent →
      t.proto = 0x80#8 ||| r.tag.code.setWidth 8 ∧ t.addr = r.addr ∧ t.cmd = r.cmd ∧ t.lastEvent = ts) ∧
    (∀ r, first = some r → ts - s.lastEvent < s.config.debounce →
      t.proto = s.proto ∧ t.addr = s.addr ∧ t.cmd = s.cmd ∧ t.lastEvent = s.lastEvent) ∧
    (first = none → t.proto = s.proto ∧ t.addr = s.addr ∧ t.cmd = s.cmd ∧ t.lastEvent = s.lastEvent)

/-- R168: publication writes PROTO with NEW = 1, ADDR, CMD and LAST_EVENT, and nothing else. -/
def Obligations.PublicationWritesTheFourRegisters : Prop :=
  ∀ (s : State) (tag : Tag) (a : BitVec 16) (c : BitVec 32),
    s.publish ⟨tag, a, c⟩ =
      { s with proto := 0x80#8 ||| tag.code.setWidth 8, addr := a, cmd := c, lastEvent := s.lastEdge }

/-- R171: with DEBOUNCE = 0 the completion that wins arbitration in an EDGE that is not dropped (the first of the fan-out's results) is published, whatever LAST_EVENT is. -/
def Obligations.ZeroDebouncePublishesEveryWinner : Prop :=
  ∀ (s : State) (ts : Time) (r : Decoded) (rest : List Decoded),
    s.fault = none → s.proto.getLsbD 7 = false → s.txBusy = false → s.config.debounce = 0#32 →
    results ts (classify ts s.lastEdge) (s.setLastEdge ts) = r :: rest →
    ∃ t, exec (.edge ts) s = .next t ∧ t.proto.getLsbD 7 = true ∧ t.proto.extractLsb' 0 7 = r.tag.code ∧
      t.addr = r.addr ∧ t.cmd = r.cmd ∧ t.lastEvent = ts

/-- Any run of edges while a result is unread or a transmission is in flight changes nothing: the repository is not overwritten while pending (R169), the decoders keep their mid-frame state (R261), and a frame that arrives during a transmission is lost (R263). -/
def Obligations.EveryEdgeIsLostWhilePendingOrBusy : Prop :=
  ∀ (s : State) (times : List Time), s.fault = none → (s.proto.getLsbD 7 = true ∨ s.txBusy = true) →
    execAll (times.map Instr.edge) s = .next s

/-- The repeat memory is written only by an EDGE, which then makes it valid and stamps it with the edge's own timestamp, and by RESET, which clears it (R38). -/
def Obligations.RepeatMemoryIsWrittenOnlyByEdgeAndReset : Prop :=
  ∀ (i : Instr) (s t : State), exec i s = .next t → t.rep ≠ s.rep →
    (i = .edge t.rep.time ∧ t.rep.valid = true) ∨ (i = .reset ∧ t.rep = ⟨false, 0#16, 0#8, 0#32⟩)

/-- LAST_EVENT moves only with a publication, to the timestamp of the publishing edge, or with RESET, to 0 (R24). -/
def Obligations.LastEventMovesOnlyWithAPublication : Prop :=
  ∀ (i : Instr) (s t : State), exec i s = .next t → t.lastEvent ≠ s.lastEvent →
    (i = .edge t.lastEvent ∧ s.proto.getLsbD 7 = false ∧ t.proto.getLsbD 7 = true ∧ t.lastEdge = t.lastEvent) ∨
    (i = .reset ∧ t.lastEvent = 0#32)

/-! ### The repository (43_repository.md) -/

/-- AVAILABLE answers NEW in bit 0, the other bits 0, and changes nothing (R88, R180). -/
def Obligations.AvailableAnswersNew : Prop :=
  ∀ s : State, s.fault = none →
    exec .avail s = .next { s with
      responses := s.responses ++ [if s.proto.getLsbD 7 = true then 1#64 else 0#64] }

/-- READ answers TAG in bits 6:0, ADDR in bits 23:8 and CMD in bits 55:24, the other bits 0, clears NEW, keeps TAG, and changes nothing else (R88, R181). -/
def Obligations.ReadAnswersTheTripleAndClearsNew : Prop :=
  ∀ s : State, s.fault = none →
    exec .read s = .next { s with
      proto := s.proto &&& 0x7F#8
      responses := s.responses ++
        [(s.proto &&& 0x7F#8).setWidth 64 ||| (s.addr.setWidth 64 <<< 8) ||| (s.cmd.setWidth 64 <<< 24)] }

/-- Two READs in a row answer the same word, and after them NEW is 0 (R64, R182). -/
def Obligations.SecondReadAnswersTheSame : Prop :=
  ∀ s : State, s.fault = none → ∃ t u w, exec .read s = .next t ∧ exec .read t = .next u ∧
    t.responses = s.responses ++ [w] ∧ u.responses = s.responses ++ [w, w] ∧
    t.proto.getLsbD 7 = false ∧ u.proto = t.proto

/-- R183 and R46: of all operations only READ and RESET clear NEW. -/
def Obligations.OnlyReadAndResetClearNew : Prop :=
  ∀ (i : Instr) (s t : State), exec i s = .next t → s.proto.getLsbD 7 = true → t.proto.getLsbD 7 = false →
    i = .read ∨ i = .reset

/-- No tearing (R31, R184): an operation leaves the triple {TAG, ADDR, CMD} as it is, or is an EDGE that replaces all of it by one completed result and sets NEW, or is RESET and leaves the reset triple. -/
def Obligations.RepositoryNeverTears : Prop :=
  ∀ (i : Instr) (s t : State), exec i s = .next t →
    (t.proto.extractLsb' 0 7 = s.proto.extractLsb' 0 7 ∧ t.addr = s.addr ∧ t.cmd = s.cmd) ∨
    (∃ ts r, i = .edge ts ∧ r ∈ results ts (classify ts s.lastEdge) (s.setLastEdge ts) ∧
      s.proto.getLsbD 7 = false ∧ t.proto.getLsbD 7 = true ∧
      t.proto.extractLsb' 0 7 = r.tag.code ∧ t.addr = r.addr ∧ t.cmd = r.cmd) ∨
    (i = .reset ∧ t.proto = 0#8 ∧ t.addr = 0#16 ∧ t.cmd = 0#32)

/-! ### The transmitter (44_transmit.md) -/

/-- SEND of each of the eight supported tags, when no transmission is in flight: TX_BUSY is set, the envelope is on IR_OUT and recorded as one Tx event, and nothing else changes (R190, R199). The selector set does not depend on ENABLED. -/
def Obligations.SendEmitsTheEnvelope : Prop :=
  ∀ (s : State) (tag : Tag) (a : BitVec 16) (c : BitVec 32), s.fault = none → s.txBusy = false →
    tag ≠ .noProtocol → tag ≠ .user →
    ∃ tx, envelope s.config tag.code a c = some tx ∧
      exec (.send tag.code a c) s = .next { s with
        txBusy := true, irOut := some tx, txEvents := s.txEvents ++ [.tx tx] }

/-- SEND with SEL 0x00, 0x01 or 0x0A to 0x7F faults, with FAULT = (1, SEL) (R190, R222), emits nothing (R205) and changes nothing else (R231). That exec answers a next state in which FAULT is recorded, and only the operations after it answer the outcome `fault`, is the model's choice (DESIGN CHOICE, notes/assumptions/3.md). -/
def Obligations.UnsupportedSendSetsFault : Prop :=
  ∀ (s : State) (sel : BitVec 7) (a : BitVec 16) (c : BitVec 32), s.fault = none → s.txBusy = false →
    (sel = 0x00#7 ∨ sel = 0x01#7 ∨ 0x0A#7 ≤ sel) →
    exec (.send sel a c) s = .next { s with fault := some (.txUnsupported sel) } ∧
      (Fault.txUnsupported sel).code = 1

/-- SEND and TX_DONE where they are not enabled have no step (R70, R226): exec answers the state as it is. That answer, and not another outcome, is the model's choice (notes/assumptions/2.md). -/
def Obligations.SendAndTxDoneWaitWhenNotEnabled : Prop :=
  ∀ (s : State) (sel : BitVec 7) (a : BitVec 16) (c : BitVec 32), s.fault = none →
    (s.txBusy = true → exec (.send sel a c) s = .next s) ∧ (s.txBusy = false → exec .txdone s = .next s)

/-- TX_DONE while a transmission is in flight: TX_BUSY is cleared, IR_OUT is low, and nothing else changes (R203). -/
def Obligations.TxDoneEndsTheTransmission : Prop :=
  ∀ s : State, s.fault = none → s.txBusy = true →
    exec .txdone s = .next { s with txBusy := false, irOut := none }

/-- R191: every envelope starts with a MARK, ends with a MARK, and its levels alternate, in every configuration. -/
def Obligations.EnvelopeAlternatesFromMarkToMark : Prop :=
  ∀ (c : Config) (sel : BitVec 7) (a : BitVec 16) (cmd : BitVec 32) (tx : Transmission),
    envelope c sel a cmd = some tx →
    tx.segments.head?.map Segment.level = some .mark ∧
    tx.segments.getLast?.map Segment.level = some .mark ∧
    alternates tx.segments = true

/-- R198: the segment count and the length of every envelope with the default tables. -/
def Obligations.EnvelopeSegmentCountAndLength : Prop :=
  ∀ (e : BitVec 16) (a : BitVec 16) (c : BitVec 32),
    (∀ sel ∈ [0x02#7, 0x03#7], ∃ tx, envelope (Config.standard e) sel a c = some tx ∧
      tx.segments.length = 67 ∧ tx.duration = 58940 + 1130 * popcount a) ∧
    (∃ tx, envelope (Config.standard e) 0x04#7 a c = some tx ∧ tx.segments.length = 3 ∧ tx.duration = 11810) ∧
    (∃ tx, envelope (Config.standard e) 0x05#7 a c = some tx ∧
      tx.segments.length = 99 ∧ tx.duration = 47088 + 864 * (popcount a + popcount c)) ∧
    (∀ x ∈ [(0x06#7, 8, sony8Bits c), (0x07#7, 12, sony12Bits a c), (0x08#7, 15, sony15Bits a c), (0x09#7, 20, sony20Bits a c)],
      ∃ tx, envelope (Config.standard e) x.1 a c = some tx ∧
        tx.segments.length = 2 * x.2.1 + 3 ∧ tx.duration = 3600 + 1200 * x.2.1 + 600 * x.2.2.count true)

/-- NEC and NEC_EXTENDED emit the same envelope, from `a` and the low eight bits of `c` alone (R194); NEC_REPEAT's does not depend on `a` and `c` (R195, R205(d)); SONY8's does not depend on `a` (R205(c)). -/
def Obligations.EnvelopeIgnoresBitsBeyondTheProtocol : Prop :=
  ∀ (cfg : Config) (a a' : BitVec 16) (c c' : BitVec 32),
    envelope cfg 0x02#7 a c = envelope cfg 0x03#7 a c ∧
    (c &&& 0xFF#32 = c' &&& 0xFF#32 → envelope cfg 0x02#7 a c = envelope cfg 0x02#7 a c') ∧
    envelope cfg 0x04#7 a c = envelope cfg 0x04#7 a' c' ∧
    (c &&& 0xFF#32 = c' &&& 0xFF#32 → envelope cfg 0x06#7 a c = envelope cfg 0x06#7 a' c') ∧
    (c &&& 0x7F#32 = c' &&& 0x7F#32 → a &&& 0x1F#16 = a' &&& 0x1F#16 → envelope cfg 0x07#7 a c = envelope cfg 0x07#7 a' c') ∧
    (c &&& 0x7F#32 = c' &&& 0x7F#32 → a &&& 0xFF#16 = a' &&& 0xFF#16 → envelope cfg 0x08#7 a c = envelope cfg 0x08#7 a' c') ∧
    (c &&& 0x7FFF#32 = c' &&& 0x7FFF#32 → a &&& 0x1F#16 = a' &&& 0x1F#16 → envelope cfg 0x09#7 a c = envelope cfg 0x09#7 a' c')

/-- Round trip of NEC and NEC_EXTENDED (R204) with the default NEC table, whatever other tags are enabled with their default tables: an envelope delivered edge by edge after a gap of at least 65535 µs publishes what was sent, if the completing edge (the start of the trailing mark) is DEBOUNCE past LAST_EVENT. The decoders may start in any state. -/
def Obligations.NecRoundTrip : Prop :=
  ∀ (s : State) (a : BitVec 16) (c : BitVec 32) (t0 : Time) (tag : Tag) (tx : Transmission),
    s.fault = none → s.proto.getLsbD 7 = false → s.txBusy = false →
    s.config.nec = (Config.standard 0#16).nec → s.config.trailNec = 560#16 →
    s.config.defaultOrOff .pan = true → s.config.defaultOrOff .sony = true →
    tag = (if a.toNat / 256 = 255 - a.toNat % 256 then .nec else .necExtended) → s.config.tagEnabled tag = true →
    c.toNat < 2 ^ 8 → 65535#32 ≤ t0 - s.lastEdge → envelope s.config tag.code a c = some tx →
    s.config.debounce ≤ t0 + BitVec.ofNat 32 (tx.duration - 560) - s.lastEvent →
    ∃ t, execAll (tx.edges t0) s = .next t ∧
      t.proto = 0x80#8 ||| tag.code.setWidth 8 ∧ t.addr = a ∧ t.cmd = c ∧
      t.lastEvent = t0 + BitVec.ofNat 32 (tx.duration - 560) ∧ t.nec = Decoder.idle ∧
      t.rep = ⟨true, a, c.setWidth 8, t.lastEvent⟩

/-- Round trip of Panasonic (R204) with the default Panasonic table, for every address and command, whatever other tags are enabled with their default tables. -/
def Obligations.PanasonicRoundTrip : Prop :=
  ∀ (s : State) (a : BitVec 16) (c : BitVec 32) (t0 : Time) (tx : Transmission),
    s.fault = none → s.proto.getLsbD 7 = false → s.txBusy = false →
    s.config.pan = (Config.standard 0#16).pan → s.config.trailPan = 432#16 → s.config.tagEnabled .panasonic = true →
    s.config.defaultOrOff .nec = true → s.config.defaultOrOff .sony = true →
    65535#32 ≤ t0 - s.lastEdge → envelope s.config Tag.panasonic.code a c = some tx →
    s.config.debounce ≤ t0 + BitVec.ofNat 32 (tx.duration - 432) - s.lastEvent →
    ∃ t, execAll (tx.edges t0) s = .next t ∧
      t.proto = 0x85#8 ∧ t.addr = a ∧ t.cmd = c ∧ t.lastEvent = t0 + BitVec.ofNat 32 (tx.duration - 432)

/-- Round trip of the four Sony protocols (R204) with the default Sony table, on the values each can carry, with no smaller Sony instance enabled, whatever larger Sony instances and, with their default tables, other tags are enabled; the completing edge ends the last bit's mark, one space and the trailing mark before the end. -/
def Obligations.SonyRoundTrip : Prop :=
  ∀ (s : State) (a : BitVec 16) (c : BitVec 32) (t0 : Time) (tag : Tag) (tx : Transmission),
    s.fault = none → s.proto.getLsbD 7 = false → s.txBusy = false →
    s.config.sony = (Config.standard 0#16).sony → s.config.trailSony = 600#16 →
    s.config.defaultOrOff .nec = true → s.config.defaultOrOff .pan = true →
    s.config.tagEnabled tag = true →
    (∀ u ∈ [Tag.sony8, .sony12, .sony15], u.code < tag.code → s.config.tagEnabled u = false) →
    (tag = .sony8 ∧ a = 0#16 ∧ c.toNat < 2 ^ 8 ∨ tag = .sony12 ∧ a.toNat < 2 ^ 5 ∧ c.toNat < 2 ^ 7 ∨
     tag = .sony15 ∧ a.toNat < 2 ^ 8 ∧ c.toNat < 2 ^ 7 ∨ tag = .sony20 ∧ a.toNat < 2 ^ 5 ∧ c.toNat < 2 ^ 15) →
    65535#32 ≤ t0 - s.lastEdge → envelope s.config tag.code a c = some tx →
    s.config.debounce ≤ t0 + BitVec.ofNat 32 (tx.duration - 1200) - s.lastEvent →
    ∃ t, execAll (tx.edges t0) s = .next t ∧
      t.proto = 0x80#8 ||| tag.code.setWidth 8 ∧ t.addr = a ∧ t.cmd = c ∧
      t.lastEvent = t0 + BitVec.ofNat 32 (tx.duration - 1200)

/-- Round trip of the repeat code (R204, R131), whatever other tags are enabled with their default tables: it publishes the remembered address and command under NEC_REPEAT at the end of the repeat space, 11250 µs after the first edge. -/
def Obligations.NecRepeatRoundTrip : Prop :=
  ∀ (s : State) (a : BitVec 16) (c : BitVec 32) (t0 : Time) (tx : Transmission),
    s.fault = none → s.proto.getLsbD 7 = false → s.txBusy = false →
    s.config.nec = (Config.standard 0#16).nec → s.config.necRepeatSpace = (Config.standard 0#16).necRepeatSpace →
    s.config.trailNec = 560#16 →
    s.config.defaultOrOff .pan = true → s.config.defaultOrOff .sony = true →
    s.config.tagEnabled .necRepeat = true → s.rep.valid = true → t0 + 11250#32 - s.rep.time < s.config.necRepeatWindow →
    65535#32 ≤ t0 - s.lastEdge → envelope s.config Tag.necRepeat.code a c = some tx →
    s.config.debounce ≤ t0 + 11250#32 - s.lastEvent →
    ∃ t, execAll (tx.edges t0) s = .next t ∧
      t.proto = 0x84#8 ∧ t.addr = s.rep.addr ∧ t.cmd = s.rep.cmd.setWidth 32 ∧
      t.lastEvent = t0 + 11250#32 ∧ t.rep = { s.rep with time := t0 + 11250#32 }

/-- The waveform on IR_OUT (R199 to R201): in the half-open interval of a segment the pin is low in a space and follows the carrier, its phase restarted at the start of the mark, in a mark; from the end of the last segment on it is low. -/
def Obligations.WaveformOfAnEnvelope : Prop :=
  ∀ (s : State) (t : Transmission), s.irOut = some t →
    (∀ (i : Nat) (g : Segment) (off : Nat), t.segments[i]? = some g → off < 1000 * g.length.toNat →
      s.irLevel (1000 * t.startOf i + off) =
        match g.level with
        | .space => false
        | .mark => decide (off % (1000000000 / s.config.carrierHz t.proto) <
            1000000000 / s.config.carrierHz t.proto * s.config.dutyNum / s.config.dutyDen)) ∧
    (∀ ns, 1000 * t.duration ≤ ns → s.irLevel ns = false)

/-- R202: the carrier constants with the defaults: PER_NS, HIGH_NS, and the pulses in the lead mark and the bit marks. -/
def Obligations.CarrierConstantsWithTheDefaults : Prop :=
  ∀ e : BitVec 16,
    let c := Config.standard e
    (carrierPeriod c .nec = 26315 ∧ carrierHigh c .nec = 13157 ∧ markPulses c .nec 9000 = 343 ∧ markPulses c .nec 560 = 22 ∧
      9000000 - 342 * 26315 = 270) ∧
    (carrierPeriod c .pan = 27027 ∧ carrierHigh c .pan = 13513 ∧ markPulses c .pan 3456 = 128 ∧ markPulses c .pan 432 = 16) ∧
    (carrierPeriod c .sony = 25000 ∧ carrierHigh c .sony = 12500 ∧ markPulses c .sony 2400 = 96 ∧
      markPulses c .sony 600 = 24 ∧ markPulses c .sony 1200 = 48)

/-! ### RESET (70_reset_and_hazards.md) -/

/-- RESET (R250, R252): in every unfaulted state it completes; every register takes its reset value, IR_OUT is low, TxAbort is recorded exactly if a transmission was in flight, and the configuration stays. That the model's own records, the words and the turns stay too is its choice (notes/assumptions/21.md). -/
def Obligations.ResetRestoresEveryRegister : Prop :=
  ∀ s : State, s.fault = none →
    exec .reset s = .next { State.powerOn s.config with
      responses := s.responses
      txEvents := s.txEvents ++ if s.txBusy = true then [.abort] else []
      inbox := s.inbox
      turns := s.turns }

/-- R48: the reset value of every register, produced by power-on with any configuration and by RESET alike; FAULT is clear after power-on, and still so after a RESET, which runs only while it is clear. -/
def Obligations.PowerOnAndResetHoldTheResetTable : Prop :=
  ∀ s : State, (∃ c : Config, s = State.powerOn c) ∨ (∃ u : State, exec .reset u = .next s) →
    s.lastEdge = 0x00000000#32 ∧ s.lastEvent = 0x00000000#32 ∧ s.proto = 0x00#8 ∧ s.addr = 0x0000#16 ∧ s.cmd = 0x00000000#32 ∧
    s.nec = ⟨.idle, 0#6, 0#32⟩ ∧ s.pan = ⟨.idle, 0#6, 0#48⟩ ∧ s.sony8 = ⟨.idle, 0#6, 0#8⟩ ∧ s.sony12 = ⟨.idle, 0#6, 0#12⟩ ∧
    s.sony15 = ⟨.idle, 0#6, 0#15⟩ ∧ s.sony20 = ⟨.idle, 0#6, 0#20⟩ ∧ s.rep = ⟨false, 0#16, 0#8, 0#32⟩ ∧
    s.txBusy = false ∧ s.irOut = none ∧ s.fault = none

/-! ### Rules over all operations -/

/-- The configuration never changes (R8, R252). -/
def Obligations.NoStepChangesTheConfiguration : Prop :=
  ∀ s t : State, step s = .next t → t.config = s.config

/-- Ownership of writes (R22, R64): AVAILABLE, READ, SEND and TX_DONE leave LAST_EDGE, LAST_EVENT, every decoder, the repeat memory, ADDR, CMD and TAG as they are. -/
def Obligations.ConsumerAndTransmitterNeverTouchCapture : Prop :=
  ∀ (i : Instr) (s t : State), owner i = .consumer ∨ owner i = .transmitter → exec i s = .next t →
    t.lastEdge = s.lastEdge ∧ t.lastEvent = s.lastEvent ∧ t.nec = s.nec ∧ t.pan = s.pan ∧ t.sony8 = s.sony8 ∧
    t.sony12 = s.sony12 ∧ t.sony15 = s.sony15 ∧ t.sony20 = s.sony20 ∧ t.rep = s.rep ∧
    t.addr = s.addr ∧ t.cmd = s.cmd ∧ t.proto.extractLsb' 0 7 = s.proto.extractLsb' 0 7

/-- TX_BUSY and IR_OUT are written by SEND, TX_DONE and RESET alone, and FAULT by a SEND with an unsupported selector alone (R22, R46). -/
def Obligations.TransmitterAndFaultHaveTheirOwnWriters : Prop :=
  ∀ (i : Instr) (s t : State), exec i s = .next t →
    ((t.txBusy ≠ s.txBusy ∨ t.irOut ≠ s.irOut) → owner i = .transmitter ∨ i = .reset ∨
      ∃ sel a c, i = .send sel a c ∧ s.txBusy = false ∧ t.txBusy = true) ∧
    (t.fault ≠ s.fault → ∃ sel a c, i = .send sel a c ∧ t.fault = some (.txUnsupported sel) ∧ envelope s.config sel a c = none)

/-- The invariant: legal decoder instances (R35 to R37), disabled ones in their reset state (R33), a legal TAG (R30), a repeat memory that holds its reset values until valid (R38), IR_OUT carrying an envelope exactly while TX_BUSY (R39): every step keeps it. -/
def Obligations.EveryStepKeepsTheInvariant : Prop :=
  ∀ s t : State, Inv s → step s = .next t → Inv t

/-- The invariant holds after power-on with any configuration, and so at State.reset, whose configuration is the model's choice (notes/assumptions/6.md). -/
def Obligations.TheInvariantHoldsAtPowerOn : Prop :=
  (∀ c : Config, Inv (State.powerOn c)) ∧ Inv State.reset

/-! ### Encoding of the FSM states, default tables (10_state.md R34; 41_decoders.md R113 to R115) -/

/-- `X.ST[1:0]` is encoded as IDLE = 0, LEAD = 1, MARK = 2, SPACE = 3, every two-bit value being one of the four; DONE is no held state: an FSM step that reports a full frame or a repeat code leaves `X.ST = 0`; and every instance is reset to IDLE (R34). -/
def Obligations.FsmStateEncoding : Prop :=
  (FsmState.idle.code = 0#2 ∧ FsmState.lead.code = 1#2 ∧ FsmState.mark.code = 2#2 ∧ FsmState.space.code = 3#2) ∧
  (∀ q : FsmState, FsmState.ofCode q.code = q) ∧ (∀ v : BitVec 2, (FsmState.ofCode v).code = v) ∧
  (∀ (n : Nat) (kind : Kind) (t : Timing) (rs : Option Window) (d : Duration) (x : Decoder n),
    (fsmStep kind t rs d x).2 ≠ .nothing → (fsmStep kind t rs d x).1.stBits = 0#2) ∧
  (∀ c : Config, (State.powerOn c).nec.stBits = 0#2 ∧ (State.powerOn c).pan.stBits = 0#2 ∧
    (State.powerOn c).sony8.stBits = 0#2 ∧ (State.powerOn c).sony12.stBits = 0#2 ∧
    (State.powerOn c).sony15.stBits = 0#2 ∧ (State.powerOn c).sony20.stBits = 0#2)

/-- The default windows and bit bounds as arithmetic on naturals, for every nominal length (R113); where an upper bound would exceed 65535 the window or the bounds are not ordered, so that the table is refused (R9). -/
def Obligations.DefaultWindowsAndBitBounds : Prop :=
  (∀ len : Duration,
    (len.toNat + len.toNat / 4 ≤ 65535 →
      (Window.around len).lo.toNat = len.toNat - len.toNat / 4 ∧ (Window.around len).hi.toNat = len.toNat + len.toNat / 4) ∧
    (65535 < len.toNat + len.toNat / 4 → (Window.around len).ordered = false)) ∧
  (∀ lm ls half zero one : Duration,
    (Timing.around lm ls half zero one).leadMark = ⟨lm, Window.around lm⟩ ∧
    (Timing.around lm ls half zero one).leadSpace = ⟨ls, Window.around ls⟩ ∧
    (Timing.around lm ls half zero one).half = ⟨half, Window.around half⟩ ∧
    (Timing.around lm ls half zero one).bitLo.toNat = zero.toNat - zero.toNat / 4 ∧
    (Timing.around lm ls half zero one).bitMid.toNat = (zero.toNat + one.toNat) / 2 ∧
    (one.toNat + one.toNat / 4 ≤ 65535 →
      (Timing.around lm ls half zero one).bitHi.toNat = one.toNat + one.toNat / 4) ∧
    (65535 < one.toNat + one.toNat / 4 → (Timing.around lm ls half zero one).bitBoundsOrdered = false))

/-- The default tables of NEC (R114), Panasonic and Sony (R115), number by number, with the trailing mark that R114 gives NEC; the 32-bit count is the width of the NEC buffer. -/
def Obligations.DefaultTimingTables : Prop :=
  ∀ e : BitVec 16,
    (Config.standard e).nec = {
      leadMark := ⟨9000#16, ⟨6750#16, 11250#16⟩⟩, leadSpace := ⟨4500#16, ⟨3375#16, 5625#16⟩⟩
      half := ⟨560#16, ⟨420#16, 700#16⟩⟩, zero := 560#16, one := 1690#16
      bitLo := 420#16, bitMid := 1125#16, bitHi := 2112#16, timeout := 65535#16 } ∧
    (Config.standard e).necRepeatSpace = ⟨2250#16, ⟨1688#16, 2812#16⟩⟩ ∧ (Config.standard e).trailNec = 560#16 ∧
    (Config.standard e).pan = {
      leadMark := ⟨3456#16, ⟨2592#16, 4320#16⟩⟩, leadSpace := ⟨1728#16, ⟨1296#16, 2160#16⟩⟩
      half := ⟨432#16, ⟨324#16, 540#16⟩⟩, zero := 432#16, one := 1296#16
      bitLo := 324#16, bitMid := 864#16, bitHi := 1620#16, timeout := 65535#16 } ∧
    (Config.standard e).sony = {
      leadMark := ⟨2400#16, ⟨1800#16, 3000#16⟩⟩, leadSpace := ⟨600#16, ⟨450#16, 750#16⟩⟩
      half := ⟨600#16, ⟨450#16, 750#16⟩⟩, zero := 600#16, one := 1200#16
      bitLo := 450#16, bitMid := 900#16, bitHi := 1500#16, timeout := 65535#16 }
end

