-- ==== Sys2Proof/Laws/State.lean ====
section
/-! SUPPORT. What each named update of State does to each field, one lemma per field, so that no proof unfolds a record update. -/

namespace Sys2Proof.Machine

/-! setLastEdge -/

@[simp] theorem State.setLastEdge_config (s : State) (now : Time) : (s.setLastEdge now).config = s.config := rfl
@[simp] theorem State.setLastEdge_lastEdge (s : State) (now : Time) : (s.setLastEdge now).lastEdge = now := rfl
@[simp] theorem State.setLastEdge_lastEvent (s : State) (now : Time) : (s.setLastEdge now).lastEvent = s.lastEvent := rfl
@[simp] theorem State.setLastEdge_proto (s : State) (now : Time) : (s.setLastEdge now).proto = s.proto := rfl
@[simp] theorem State.setLastEdge_addr (s : State) (now : Time) : (s.setLastEdge now).addr = s.addr := rfl
@[simp] theorem State.setLastEdge_cmd (s : State) (now : Time) : (s.setLastEdge now).cmd = s.cmd := rfl
@[simp] theorem State.setLastEdge_nec (s : State) (now : Time) : (s.setLastEdge now).nec = s.nec := rfl
@[simp] theorem State.setLastEdge_pan (s : State) (now : Time) : (s.setLastEdge now).pan = s.pan := rfl
@[simp] theorem State.setLastEdge_sony8 (s : State) (now : Time) : (s.setLastEdge now).sony8 = s.sony8 := rfl
@[simp] theorem State.setLastEdge_sony12 (s : State) (now : Time) : (s.setLastEdge now).sony12 = s.sony12 := rfl
@[simp] theorem State.setLastEdge_sony15 (s : State) (now : Time) : (s.setLastEdge now).sony15 = s.sony15 := rfl
@[simp] theorem State.setLastEdge_sony20 (s : State) (now : Time) : (s.setLastEdge now).sony20 = s.sony20 := rfl
@[simp] theorem State.setLastEdge_rep (s : State) (now : Time) : (s.setLastEdge now).rep = s.rep := rfl
@[simp] theorem State.setLastEdge_txBusy (s : State) (now : Time) : (s.setLastEdge now).txBusy = s.txBusy := rfl
@[simp] theorem State.setLastEdge_irOut (s : State) (now : Time) : (s.setLastEdge now).irOut = s.irOut := rfl
@[simp] theorem State.setLastEdge_fault (s : State) (now : Time) : (s.setLastEdge now).fault = s.fault := rfl
@[simp] theorem State.setLastEdge_responses (s : State) (now : Time) : (s.setLastEdge now).responses = s.responses := rfl
@[simp] theorem State.setLastEdge_txEvents (s : State) (now : Time) : (s.setLastEdge now).txEvents = s.txEvents := rfl
@[simp] theorem State.setLastEdge_inbox (s : State) (now : Time) : (s.setLastEdge now).inbox = s.inbox := rfl
@[simp] theorem State.setLastEdge_turns (s : State) (now : Time) : (s.setLastEdge now).turns = s.turns := rfl

/-! publish -/

@[simp] theorem State.publish_config (s : State) (r : Decoded) : (s.publish r).config = s.config := rfl
@[simp] theorem State.publish_lastEdge (s : State) (r : Decoded) : (s.publish r).lastEdge = s.lastEdge := rfl
@[simp] theorem State.publish_lastEvent (s : State) (r : Decoded) : (s.publish r).lastEvent = s.lastEdge := rfl
@[simp] theorem State.publish_proto (s : State) (r : Decoded) : (s.publish r).proto = publishedProto r.tag := rfl
@[simp] theorem State.publish_addr (s : State) (r : Decoded) : (s.publish r).addr = r.addr := rfl
@[simp] theorem State.publish_cmd (s : State) (r : Decoded) : (s.publish r).cmd = r.cmd := rfl
@[simp] theorem State.publish_nec (s : State) (r : Decoded) : (s.publish r).nec = s.nec := rfl
@[simp] theorem State.publish_pan (s : State) (r : Decoded) : (s.publish r).pan = s.pan := rfl
@[simp] theorem State.publish_sony8 (s : State) (r : Decoded) : (s.publish r).sony8 = s.sony8 := rfl
@[simp] theorem State.publish_sony12 (s : State) (r : Decoded) : (s.publish r).sony12 = s.sony12 := rfl
@[simp] theorem State.publish_sony15 (s : State) (r : Decoded) : (s.publish r).sony15 = s.sony15 := rfl
@[simp] theorem State.publish_sony20 (s : State) (r : Decoded) : (s.publish r).sony20 = s.sony20 := rfl
@[simp] theorem State.publish_rep (s : State) (r : Decoded) : (s.publish r).rep = s.rep := rfl
@[simp] theorem State.publish_txBusy (s : State) (r : Decoded) : (s.publish r).txBusy = s.txBusy := rfl
@[simp] theorem State.publish_irOut (s : State) (r : Decoded) : (s.publish r).irOut = s.irOut := rfl
@[simp] theorem State.publish_fault (s : State) (r : Decoded) : (s.publish r).fault = s.fault := rfl
@[simp] theorem State.publish_responses (s : State) (r : Decoded) : (s.publish r).responses = s.responses := rfl
@[simp] theorem State.publish_txEvents (s : State) (r : Decoded) : (s.publish r).txEvents = s.txEvents := rfl
@[simp] theorem State.publish_inbox (s : State) (r : Decoded) : (s.publish r).inbox = s.inbox := rfl
@[simp] theorem State.publish_turns (s : State) (r : Decoded) : (s.publish r).turns = s.turns := rfl

/-! clearNew -/

@[simp] theorem State.clearNew_config (s : State) : (s.clearNew).config = s.config := rfl
@[simp] theorem State.clearNew_lastEdge (s : State) : (s.clearNew).lastEdge = s.lastEdge := rfl
@[simp] theorem State.clearNew_lastEvent (s : State) : (s.clearNew).lastEvent = s.lastEvent := rfl
@[simp] theorem State.clearNew_proto (s : State) : (s.clearNew).proto = 0#1 ++ s.tag := rfl
@[simp] theorem State.clearNew_addr (s : State) : (s.clearNew).addr = s.addr := rfl
@[simp] theorem State.clearNew_cmd (s : State) : (s.clearNew).cmd = s.cmd := rfl
@[simp] theorem State.clearNew_nec (s : State) : (s.clearNew).nec = s.nec := rfl
@[simp] theorem State.clearNew_pan (s : State) : (s.clearNew).pan = s.pan := rfl
@[simp] theorem State.clearNew_sony8 (s : State) : (s.clearNew).sony8 = s.sony8 := rfl
@[simp] theorem State.clearNew_sony12 (s : State) : (s.clearNew).sony12 = s.sony12 := rfl
@[simp] theorem State.clearNew_sony15 (s : State) : (s.clearNew).sony15 = s.sony15 := rfl
@[simp] theorem State.clearNew_sony20 (s : State) : (s.clearNew).sony20 = s.sony20 := rfl
@[simp] theorem State.clearNew_rep (s : State) : (s.clearNew).rep = s.rep := rfl
@[simp] theorem State.clearNew_txBusy (s : State) : (s.clearNew).txBusy = s.txBusy := rfl
@[simp] theorem State.clearNew_irOut (s : State) : (s.clearNew).irOut = s.irOut := rfl
@[simp] theorem State.clearNew_fault (s : State) : (s.clearNew).fault = s.fault := rfl
@[simp] theorem State.clearNew_responses (s : State) : (s.clearNew).responses = s.responses := rfl
@[simp] theorem State.clearNew_txEvents (s : State) : (s.clearNew).txEvents = s.txEvents := rfl
@[simp] theorem State.clearNew_inbox (s : State) : (s.clearNew).inbox = s.inbox := rfl
@[simp] theorem State.clearNew_turns (s : State) : (s.clearNew).turns = s.turns := rfl

/-! setBusy -/

@[simp] theorem State.setBusy_config (s : State) : (s.setBusy).config = s.config := rfl
@[simp] theorem State.setBusy_lastEdge (s : State) : (s.setBusy).lastEdge = s.lastEdge := rfl
@[simp] theorem State.setBusy_lastEvent (s : State) : (s.setBusy).lastEvent = s.lastEvent := rfl
@[simp] theorem State.setBusy_proto (s : State) : (s.setBusy).proto = s.proto := rfl
@[simp] theorem State.setBusy_addr (s : State) : (s.setBusy).addr = s.addr := rfl
@[simp] theorem State.setBusy_cmd (s : State) : (s.setBusy).cmd = s.cmd := rfl
@[simp] theorem State.setBusy_nec (s : State) : (s.setBusy).nec = s.nec := rfl
@[simp] theorem State.setBusy_pan (s : State) : (s.setBusy).pan = s.pan := rfl
@[simp] theorem State.setBusy_sony8 (s : State) : (s.setBusy).sony8 = s.sony8 := rfl
@[simp] theorem State.setBusy_sony12 (s : State) : (s.setBusy).sony12 = s.sony12 := rfl
@[simp] theorem State.setBusy_sony15 (s : State) : (s.setBusy).sony15 = s.sony15 := rfl
@[simp] theorem State.setBusy_sony20 (s : State) : (s.setBusy).sony20 = s.sony20 := rfl
@[simp] theorem State.setBusy_rep (s : State) : (s.setBusy).rep = s.rep := rfl
@[simp] theorem State.setBusy_txBusy (s : State) : (s.setBusy).txBusy = true := rfl
@[simp] theorem State.setBusy_irOut (s : State) : (s.setBusy).irOut = s.irOut := rfl
@[simp] theorem State.setBusy_fault (s : State) : (s.setBusy).fault = s.fault := rfl
@[simp] theorem State.setBusy_responses (s : State) : (s.setBusy).responses = s.responses := rfl
@[simp] theorem State.setBusy_txEvents (s : State) : (s.setBusy).txEvents = s.txEvents := rfl
@[simp] theorem State.setBusy_inbox (s : State) : (s.setBusy).inbox = s.inbox := rfl
@[simp] theorem State.setBusy_turns (s : State) : (s.setBusy).turns = s.turns := rfl

/-! clearBusy -/

@[simp] theorem State.clearBusy_config (s : State) : (s.clearBusy).config = s.config := rfl
@[simp] theorem State.clearBusy_lastEdge (s : State) : (s.clearBusy).lastEdge = s.lastEdge := rfl
@[simp] theorem State.clearBusy_lastEvent (s : State) : (s.clearBusy).lastEvent = s.lastEvent := rfl
@[simp] theorem State.clearBusy_proto (s : State) : (s.clearBusy).proto = s.proto := rfl
@[simp] theorem State.clearBusy_addr (s : State) : (s.clearBusy).addr = s.addr := rfl
@[simp] theorem State.clearBusy_cmd (s : State) : (s.clearBusy).cmd = s.cmd := rfl
@[simp] theorem State.clearBusy_nec (s : State) : (s.clearBusy).nec = s.nec := rfl
@[simp] theorem State.clearBusy_pan (s : State) : (s.clearBusy).pan = s.pan := rfl
@[simp] theorem State.clearBusy_sony8 (s : State) : (s.clearBusy).sony8 = s.sony8 := rfl
@[simp] theorem State.clearBusy_sony12 (s : State) : (s.clearBusy).sony12 = s.sony12 := rfl
@[simp] theorem State.clearBusy_sony15 (s : State) : (s.clearBusy).sony15 = s.sony15 := rfl
@[simp] theorem State.clearBusy_sony20 (s : State) : (s.clearBusy).sony20 = s.sony20 := rfl
@[simp] theorem State.clearBusy_rep (s : State) : (s.clearBusy).rep = s.rep := rfl
@[simp] theorem State.clearBusy_txBusy (s : State) : (s.clearBusy).txBusy = false := rfl
@[simp] theorem State.clearBusy_irOut (s : State) : (s.clearBusy).irOut = s.irOut := rfl
@[simp] theorem State.clearBusy_fault (s : State) : (s.clearBusy).fault = s.fault := rfl
@[simp] theorem State.clearBusy_responses (s : State) : (s.clearBusy).responses = s.responses := rfl
@[simp] theorem State.clearBusy_txEvents (s : State) : (s.clearBusy).txEvents = s.txEvents := rfl
@[simp] theorem State.clearBusy_inbox (s : State) : (s.clearBusy).inbox = s.inbox := rfl
@[simp] theorem State.clearBusy_turns (s : State) : (s.clearBusy).turns = s.turns := rfl

/-! setFault -/

@[simp] theorem State.setFault_config (s : State) (f : Fault) : (s.setFault f).config = s.config := rfl
@[simp] theorem State.setFault_lastEdge (s : State) (f : Fault) : (s.setFault f).lastEdge = s.lastEdge := rfl
@[simp] theorem State.setFault_lastEvent (s : State) (f : Fault) : (s.setFault f).lastEvent = s.lastEvent := rfl
@[simp] theorem State.setFault_proto (s : State) (f : Fault) : (s.setFault f).proto = s.proto := rfl
@[simp] theorem State.setFault_addr (s : State) (f : Fault) : (s.setFault f).addr = s.addr := rfl
@[simp] theorem State.setFault_cmd (s : State) (f : Fault) : (s.setFault f).cmd = s.cmd := rfl
@[simp] theorem State.setFault_nec (s : State) (f : Fault) : (s.setFault f).nec = s.nec := rfl
@[simp] theorem State.setFault_pan (s : State) (f : Fault) : (s.setFault f).pan = s.pan := rfl
@[simp] theorem State.setFault_sony8 (s : State) (f : Fault) : (s.setFault f).sony8 = s.sony8 := rfl
@[simp] theorem State.setFault_sony12 (s : State) (f : Fault) : (s.setFault f).sony12 = s.sony12 := rfl
@[simp] theorem State.setFault_sony15 (s : State) (f : Fault) : (s.setFault f).sony15 = s.sony15 := rfl
@[simp] theorem State.setFault_sony20 (s : State) (f : Fault) : (s.setFault f).sony20 = s.sony20 := rfl
@[simp] theorem State.setFault_rep (s : State) (f : Fault) : (s.setFault f).rep = s.rep := rfl
@[simp] theorem State.setFault_txBusy (s : State) (f : Fault) : (s.setFault f).txBusy = s.txBusy := rfl
@[simp] theorem State.setFault_irOut (s : State) (f : Fault) : (s.setFault f).irOut = s.irOut := rfl
@[simp] theorem State.setFault_fault (s : State) (f : Fault) : (s.setFault f).fault = some f := rfl
@[simp] theorem State.setFault_responses (s : State) (f : Fault) : (s.setFault f).responses = s.responses := rfl
@[simp] theorem State.setFault_txEvents (s : State) (f : Fault) : (s.setFault f).txEvents = s.txEvents := rfl
@[simp] theorem State.setFault_inbox (s : State) (f : Fault) : (s.setFault f).inbox = s.inbox := rfl
@[simp] theorem State.setFault_turns (s : State) (f : Fault) : (s.setFault f).turns = s.turns := rfl

/-! respond -/

@[simp] theorem State.respond_config (s : State) (w : ResponseWord) : (s.respond w).config = s.config := rfl
@[simp] theorem State.respond_lastEdge (s : State) (w : ResponseWord) : (s.respond w).lastEdge = s.lastEdge := rfl
@[simp] theorem State.respond_lastEvent (s : State) (w : ResponseWord) : (s.respond w).lastEvent = s.lastEvent := rfl
@[simp] theorem State.respond_proto (s : State) (w : ResponseWord) : (s.respond w).proto = s.proto := rfl
@[simp] theorem State.respond_addr (s : State) (w : ResponseWord) : (s.respond w).addr = s.addr := rfl
@[simp] theorem State.respond_cmd (s : State) (w : ResponseWord) : (s.respond w).cmd = s.cmd := rfl
@[simp] theorem State.respond_nec (s : State) (w : ResponseWord) : (s.respond w).nec = s.nec := rfl
@[simp] theorem State.respond_pan (s : State) (w : ResponseWord) : (s.respond w).pan = s.pan := rfl
@[simp] theorem State.respond_sony8 (s : State) (w : ResponseWord) : (s.respond w).sony8 = s.sony8 := rfl
@[simp] theorem State.respond_sony12 (s : State) (w : ResponseWord) : (s.respond w).sony12 = s.sony12 := rfl
@[simp] theorem State.respond_sony15 (s : State) (w : ResponseWord) : (s.respond w).sony15 = s.sony15 := rfl
@[simp] theorem State.respond_sony20 (s : State) (w : ResponseWord) : (s.respond w).sony20 = s.sony20 := rfl
@[simp] theorem State.respond_rep (s : State) (w : ResponseWord) : (s.respond w).rep = s.rep := rfl
@[simp] theorem State.respond_txBusy (s : State) (w : ResponseWord) : (s.respond w).txBusy = s.txBusy := rfl
@[simp] theorem State.respond_irOut (s : State) (w : ResponseWord) : (s.respond w).irOut = s.irOut := rfl
@[simp] theorem State.respond_fault (s : State) (w : ResponseWord) : (s.respond w).fault = s.fault := rfl
@[simp] theorem State.respond_responses (s : State) (w : ResponseWord) : (s.respond w).responses = s.responses ++ [w] := rfl
@[simp] theorem State.respond_txEvents (s : State) (w : ResponseWord) : (s.respond w).txEvents = s.txEvents := rfl
@[simp] theorem State.respond_inbox (s : State) (w : ResponseWord) : (s.respond w).inbox = s.inbox := rfl
@[simp] theorem State.respond_turns (s : State) (w : ResponseWord) : (s.respond w).turns = s.turns := rfl

/-! emit -/

@[simp] theorem State.emit_config (s : State) (e : TxEvent) : (s.emit e).config = s.config := rfl
@[simp] theorem State.emit_lastEdge (s : State) (e : TxEvent) : (s.emit e).lastEdge = s.lastEdge := rfl
@[simp] theorem State.emit_lastEvent (s : State) (e : TxEvent) : (s.emit e).lastEvent = s.lastEvent := rfl
@[simp] theorem State.emit_proto (s : State) (e : TxEvent) : (s.emit e).proto = s.proto := rfl
@[simp] theorem State.emit_addr (s : State) (e : TxEvent) : (s.emit e).addr = s.addr := rfl
@[simp] theorem State.emit_cmd (s : State) (e : TxEvent) : (s.emit e).cmd = s.cmd := rfl
@[simp] theorem State.emit_nec (s : State) (e : TxEvent) : (s.emit e).nec = s.nec := rfl
@[simp] theorem State.emit_pan (s : State) (e : TxEvent) : (s.emit e).pan = s.pan := rfl
@[simp] theorem State.emit_sony8 (s : State) (e : TxEvent) : (s.emit e).sony8 = s.sony8 := rfl
@[simp] theorem State.emit_sony12 (s : State) (e : TxEvent) : (s.emit e).sony12 = s.sony12 := rfl
@[simp] theorem State.emit_sony15 (s : State) (e : TxEvent) : (s.emit e).sony15 = s.sony15 := rfl
@[simp] theorem State.emit_sony20 (s : State) (e : TxEvent) : (s.emit e).sony20 = s.sony20 := rfl
@[simp] theorem State.emit_rep (s : State) (e : TxEvent) : (s.emit e).rep = s.rep := rfl
@[simp] theorem State.emit_txBusy (s : State) (e : TxEvent) : (s.emit e).txBusy = s.txBusy := rfl
@[simp] theorem State.emit_irOut (s : State) (e : TxEvent) : (s.emit e).irOut = s.irOut := rfl
@[simp] theorem State.emit_fault (s : State) (e : TxEvent) : (s.emit e).fault = s.fault := rfl
@[simp] theorem State.emit_responses (s : State) (e : TxEvent) : (s.emit e).responses = s.responses := rfl
@[simp] theorem State.emit_txEvents (s : State) (e : TxEvent) : (s.emit e).txEvents = s.txEvents ++ [e] := rfl
@[simp] theorem State.emit_inbox (s : State) (e : TxEvent) : (s.emit e).inbox = s.inbox := rfl
@[simp] theorem State.emit_turns (s : State) (e : TxEvent) : (s.emit e).turns = s.turns := rfl

/-! drive -/

@[simp] theorem State.drive_config (s : State) (out : Option Transmission) : (s.drive out).config = s.config := rfl
@[simp] theorem State.drive_lastEdge (s : State) (out : Option Transmission) : (s.drive out).lastEdge = s.lastEdge := rfl
@[simp] theorem State.drive_lastEvent (s : State) (out : Option Transmission) : (s.drive out).lastEvent = s.lastEvent := rfl
@[simp] theorem State.drive_proto (s : State) (out : Option Transmission) : (s.drive out).proto = s.proto := rfl
@[simp] theorem State.drive_addr (s : State) (out : Option Transmission) : (s.drive out).addr = s.addr := rfl
@[simp] theorem State.drive_cmd (s : State) (out : Option Transmission) : (s.drive out).cmd = s.cmd := rfl
@[simp] theorem State.drive_nec (s : State) (out : Option Transmission) : (s.drive out).nec = s.nec := rfl
@[simp] theorem State.drive_pan (s : State) (out : Option Transmission) : (s.drive out).pan = s.pan := rfl
@[simp] theorem State.drive_sony8 (s : State) (out : Option Transmission) : (s.drive out).sony8 = s.sony8 := rfl
@[simp] theorem State.drive_sony12 (s : State) (out : Option Transmission) : (s.drive out).sony12 = s.sony12 := rfl
@[simp] theorem State.drive_sony15 (s : State) (out : Option Transmission) : (s.drive out).sony15 = s.sony15 := rfl
@[simp] theorem State.drive_sony20 (s : State) (out : Option Transmission) : (s.drive out).sony20 = s.sony20 := rfl
@[simp] theorem State.drive_rep (s : State) (out : Option Transmission) : (s.drive out).rep = s.rep := rfl
@[simp] theorem State.drive_txBusy (s : State) (out : Option Transmission) : (s.drive out).txBusy = s.txBusy := rfl
@[simp] theorem State.drive_irOut (s : State) (out : Option Transmission) : (s.drive out).irOut = out := rfl
@[simp] theorem State.drive_fault (s : State) (out : Option Transmission) : (s.drive out).fault = s.fault := rfl
@[simp] theorem State.drive_responses (s : State) (out : Option Transmission) : (s.drive out).responses = s.responses := rfl
@[simp] theorem State.drive_txEvents (s : State) (out : Option Transmission) : (s.drive out).txEvents = s.txEvents := rfl
@[simp] theorem State.drive_inbox (s : State) (out : Option Transmission) : (s.drive out).inbox = s.inbox := rfl
@[simp] theorem State.drive_turns (s : State) (out : Option Transmission) : (s.drive out).turns = s.turns := rfl

/-! startTx -/

@[simp] theorem State.startTx_config (s : State) (t : Transmission) : (s.startTx t).config = s.config := rfl
@[simp] theorem State.startTx_lastEdge (s : State) (t : Transmission) : (s.startTx t).lastEdge = s.lastEdge := rfl
@[simp] theorem State.startTx_lastEvent (s : State) (t : Transmission) : (s.startTx t).lastEvent = s.lastEvent := rfl
@[simp] theorem State.startTx_proto (s : State) (t : Transmission) : (s.startTx t).proto = s.proto := rfl
@[simp] theorem State.startTx_addr (s : State) (t : Transmission) : (s.startTx t).addr = s.addr := rfl
@[simp] theorem State.startTx_cmd (s : State) (t : Transmission) : (s.startTx t).cmd = s.cmd := rfl
@[simp] theorem State.startTx_nec (s : State) (t : Transmission) : (s.startTx t).nec = s.nec := rfl
@[simp] theorem State.startTx_pan (s : State) (t : Transmission) : (s.startTx t).pan = s.pan := rfl
@[simp] theorem State.startTx_sony8 (s : State) (t : Transmission) : (s.startTx t).sony8 = s.sony8 := rfl
@[simp] theorem State.startTx_sony12 (s : State) (t : Transmission) : (s.startTx t).sony12 = s.sony12 := rfl
@[simp] theorem State.startTx_sony15 (s : State) (t : Transmission) : (s.startTx t).sony15 = s.sony15 := rfl
@[simp] theorem State.startTx_sony20 (s : State) (t : Transmission) : (s.startTx t).sony20 = s.sony20 := rfl
@[simp] theorem State.startTx_rep (s : State) (t : Transmission) : (s.startTx t).rep = s.rep := rfl
@[simp] theorem State.startTx_txBusy (s : State) (t : Transmission) : (s.startTx t).txBusy = true := rfl
@[simp] theorem State.startTx_irOut (s : State) (t : Transmission) : (s.startTx t).irOut = some t := rfl
@[simp] theorem State.startTx_fault (s : State) (t : Transmission) : (s.startTx t).fault = s.fault := rfl
@[simp] theorem State.startTx_responses (s : State) (t : Transmission) : (s.startTx t).responses = s.responses := rfl
@[simp] theorem State.startTx_txEvents (s : State) (t : Transmission) : (s.startTx t).txEvents = s.txEvents ++ [.tx t] := rfl
@[simp] theorem State.startTx_inbox (s : State) (t : Transmission) : (s.startTx t).inbox = s.inbox := rfl
@[simp] theorem State.startTx_turns (s : State) (t : Transmission) : (s.startTx t).turns = s.turns := rfl

/-! passTurn -/

@[simp] theorem State.passTurn_config (s : State) : (s.passTurn).config = s.config := rfl
@[simp] theorem State.passTurn_lastEdge (s : State) : (s.passTurn).lastEdge = s.lastEdge := rfl
@[simp] theorem State.passTurn_lastEvent (s : State) : (s.passTurn).lastEvent = s.lastEvent := rfl
@[simp] theorem State.passTurn_proto (s : State) : (s.passTurn).proto = s.proto := rfl
@[simp] theorem State.passTurn_addr (s : State) : (s.passTurn).addr = s.addr := rfl
@[simp] theorem State.passTurn_cmd (s : State) : (s.passTurn).cmd = s.cmd := rfl
@[simp] theorem State.passTurn_nec (s : State) : (s.passTurn).nec = s.nec := rfl
@[simp] theorem State.passTurn_pan (s : State) : (s.passTurn).pan = s.pan := rfl
@[simp] theorem State.passTurn_sony8 (s : State) : (s.passTurn).sony8 = s.sony8 := rfl
@[simp] theorem State.passTurn_sony12 (s : State) : (s.passTurn).sony12 = s.sony12 := rfl
@[simp] theorem State.passTurn_sony15 (s : State) : (s.passTurn).sony15 = s.sony15 := rfl
@[simp] theorem State.passTurn_sony20 (s : State) : (s.passTurn).sony20 = s.sony20 := rfl
@[simp] theorem State.passTurn_rep (s : State) : (s.passTurn).rep = s.rep := rfl
@[simp] theorem State.passTurn_txBusy (s : State) : (s.passTurn).txBusy = s.txBusy := rfl
@[simp] theorem State.passTurn_irOut (s : State) : (s.passTurn).irOut = s.irOut := rfl
@[simp] theorem State.passTurn_fault (s : State) : (s.passTurn).fault = s.fault := rfl
@[simp] theorem State.passTurn_responses (s : State) : (s.passTurn).responses = s.responses := rfl
@[simp] theorem State.passTurn_txEvents (s : State) : (s.passTurn).txEvents = s.txEvents := rfl
@[simp] theorem State.passTurn_inbox (s : State) : (s.passTurn).inbox = s.inbox := rfl
@[simp] theorem State.passTurn_turns (s : State) : (s.passTurn).turns = s.turns.tail := rfl

/-! takeWord -/

@[simp] theorem State.takeWord_config (s : State) (a : Agent) : (s.takeWord a).config = s.config := rfl
@[simp] theorem State.takeWord_lastEdge (s : State) (a : Agent) : (s.takeWord a).lastEdge = s.lastEdge := rfl
@[simp] theorem State.takeWord_lastEvent (s : State) (a : Agent) : (s.takeWord a).lastEvent = s.lastEvent := rfl
@[simp] theorem State.takeWord_proto (s : State) (a : Agent) : (s.takeWord a).proto = s.proto := rfl
@[simp] theorem State.takeWord_addr (s : State) (a : Agent) : (s.takeWord a).addr = s.addr := rfl
@[simp] theorem State.takeWord_cmd (s : State) (a : Agent) : (s.takeWord a).cmd = s.cmd := rfl
@[simp] theorem State.takeWord_nec (s : State) (a : Agent) : (s.takeWord a).nec = s.nec := rfl
@[simp] theorem State.takeWord_pan (s : State) (a : Agent) : (s.takeWord a).pan = s.pan := rfl
@[simp] theorem State.takeWord_sony8 (s : State) (a : Agent) : (s.takeWord a).sony8 = s.sony8 := rfl
@[simp] theorem State.takeWord_sony12 (s : State) (a : Agent) : (s.takeWord a).sony12 = s.sony12 := rfl
@[simp] theorem State.takeWord_sony15 (s : State) (a : Agent) : (s.takeWord a).sony15 = s.sony15 := rfl
@[simp] theorem State.takeWord_sony20 (s : State) (a : Agent) : (s.takeWord a).sony20 = s.sony20 := rfl
@[simp] theorem State.takeWord_rep (s : State) (a : Agent) : (s.takeWord a).rep = s.rep := rfl
@[simp] theorem State.takeWord_txBusy (s : State) (a : Agent) : (s.takeWord a).txBusy = s.txBusy := rfl
@[simp] theorem State.takeWord_irOut (s : State) (a : Agent) : (s.takeWord a).irOut = s.irOut := rfl
@[simp] theorem State.takeWord_fault (s : State) (a : Agent) : (s.takeWord a).fault = s.fault := rfl
@[simp] theorem State.takeWord_responses (s : State) (a : Agent) : (s.takeWord a).responses = s.responses := rfl
@[simp] theorem State.takeWord_txEvents (s : State) (a : Agent) : (s.takeWord a).txEvents = s.txEvents := rfl
@[simp] theorem State.takeWord_inbox (s : State) (a : Agent) : (s.takeWord a).inbox = s.inbox.put a (s.inbox.of a).tail := rfl
@[simp] theorem State.takeWord_turns (s : State) (a : Agent) : (s.takeWord a).turns = s.turns.tail := rfl

/-! deliverNext -/

@[simp] theorem State.deliverNext_config (s : State) (a : Agent) (w : CommandWord) : (s.deliverNext a w).config = s.config := rfl
@[simp] theorem State.deliverNext_lastEdge (s : State) (a : Agent) (w : CommandWord) : (s.deliverNext a w).lastEdge = s.lastEdge := rfl
@[simp] theorem State.deliverNext_lastEvent (s : State) (a : Agent) (w : CommandWord) : (s.deliverNext a w).lastEvent = s.lastEvent := rfl
@[simp] theorem State.deliverNext_proto (s : State) (a : Agent) (w : CommandWord) : (s.deliverNext a w).proto = s.proto := rfl
@[simp] theorem State.deliverNext_addr (s : State) (a : Agent) (w : CommandWord) : (s.deliverNext a w).addr = s.addr := rfl
@[simp] theorem State.deliverNext_cmd (s : State) (a : Agent) (w : CommandWord) : (s.deliverNext a w).cmd = s.cmd := rfl
@[simp] theorem State.deliverNext_nec (s : State) (a : Agent) (w : CommandWord) : (s.deliverNext a w).nec = s.nec := rfl
@[simp] theorem State.deliverNext_pan (s : State) (a : Agent) (w : CommandWord) : (s.deliverNext a w).pan = s.pan := rfl
@[simp] theorem State.deliverNext_sony8 (s : State) (a : Agent) (w : CommandWord) : (s.deliverNext a w).sony8 = s.sony8 := rfl
@[simp] theorem State.deliverNext_sony12 (s : State) (a : Agent) (w : CommandWord) : (s.deliverNext a w).sony12 = s.sony12 := rfl
@[simp] theorem State.deliverNext_sony15 (s : State) (a : Agent) (w : CommandWord) : (s.deliverNext a w).sony15 = s.sony15 := rfl
@[simp] theorem State.deliverNext_sony20 (s : State) (a : Agent) (w : CommandWord) : (s.deliverNext a w).sony20 = s.sony20 := rfl
@[simp] theorem State.deliverNext_rep (s : State) (a : Agent) (w : CommandWord) : (s.deliverNext a w).rep = s.rep := rfl
@[simp] theorem State.deliverNext_txBusy (s : State) (a : Agent) (w : CommandWord) : (s.deliverNext a w).txBusy = s.txBusy := rfl
@[simp] theorem State.deliverNext_irOut (s : State) (a : Agent) (w : CommandWord) : (s.deliverNext a w).irOut = s.irOut := rfl
@[simp] theorem State.deliverNext_fault (s : State) (a : Agent) (w : CommandWord) : (s.deliverNext a w).fault = s.fault := rfl
@[simp] theorem State.deliverNext_responses (s : State) (a : Agent) (w : CommandWord) : (s.deliverNext a w).responses = s.responses := rfl
@[simp] theorem State.deliverNext_txEvents (s : State) (a : Agent) (w : CommandWord) : (s.deliverNext a w).txEvents = s.txEvents := rfl
@[simp] theorem State.deliverNext_inbox (s : State) (a : Agent) (w : CommandWord) : (s.deliverNext a w).inbox = s.inbox.put a (w :: s.inbox.of a) := rfl
@[simp] theorem State.deliverNext_turns (s : State) (a : Agent) (w : CommandWord) : (s.deliverNext a w).turns = a :: s.turns := rfl

/-! resetRegisters -/

@[simp] theorem State.resetRegisters_config (s : State) : (s.resetRegisters).config = s.config := rfl
@[simp] theorem State.resetRegisters_lastEdge (s : State) : (s.resetRegisters).lastEdge = 0#32 := rfl
@[simp] theorem State.resetRegisters_lastEvent (s : State) : (s.resetRegisters).lastEvent = 0#32 := rfl
@[simp] theorem State.resetRegisters_proto (s : State) : (s.resetRegisters).proto = 0#8 := rfl
@[simp] theorem State.resetRegisters_addr (s : State) : (s.resetRegisters).addr = 0#16 := rfl
@[simp] theorem State.resetRegisters_cmd (s : State) : (s.resetRegisters).cmd = 0#32 := rfl
@[simp] theorem State.resetRegisters_nec (s : State) : (s.resetRegisters).nec = Decoder.idle := rfl
@[simp] theorem State.resetRegisters_pan (s : State) : (s.resetRegisters).pan = Decoder.idle := rfl
@[simp] theorem State.resetRegisters_sony8 (s : State) : (s.resetRegisters).sony8 = Decoder.idle := rfl
@[simp] theorem State.resetRegisters_sony12 (s : State) : (s.resetRegisters).sony12 = Decoder.idle := rfl
@[simp] theorem State.resetRegisters_sony15 (s : State) : (s.resetRegisters).sony15 = Decoder.idle := rfl
@[simp] theorem State.resetRegisters_sony20 (s : State) : (s.resetRegisters).sony20 = Decoder.idle := rfl
@[simp] theorem State.resetRegisters_rep (s : State) : (s.resetRegisters).rep = RepeatMemory.cleared := rfl
@[simp] theorem State.resetRegisters_txBusy (s : State) : (s.resetRegisters).txBusy = false := rfl
@[simp] theorem State.resetRegisters_irOut (s : State) : (s.resetRegisters).irOut = none := rfl
@[simp] theorem State.resetRegisters_fault (s : State) : (s.resetRegisters).fault = s.fault := rfl
@[simp] theorem State.resetRegisters_responses (s : State) : (s.resetRegisters).responses = s.responses := rfl
@[simp] theorem State.resetRegisters_txEvents (s : State) : (s.resetRegisters).txEvents = s.txEvents := rfl
@[simp] theorem State.resetRegisters_inbox (s : State) : (s.resetRegisters).inbox = s.inbox := rfl
@[simp] theorem State.resetRegisters_turns (s : State) : (s.resetRegisters).turns = s.turns := rfl

/-! fanOut -/

@[simp] theorem fanOut_config (s : State) (now : Time) (d : Duration) : (fanOut now d s).config = s.config := rfl
@[simp] theorem fanOut_lastEdge (s : State) (now : Time) (d : Duration) : (fanOut now d s).lastEdge = s.lastEdge := rfl
@[simp] theorem fanOut_lastEvent (s : State) (now : Time) (d : Duration) : (fanOut now d s).lastEvent = s.lastEvent := rfl
@[simp] theorem fanOut_proto (s : State) (now : Time) (d : Duration) : (fanOut now d s).proto = s.proto := rfl
@[simp] theorem fanOut_addr (s : State) (now : Time) (d : Duration) : (fanOut now d s).addr = s.addr := rfl
@[simp] theorem fanOut_cmd (s : State) (now : Time) (d : Duration) : (fanOut now d s).cmd = s.cmd := rfl
@[simp] theorem fanOut_nec (s : State) (now : Time) (d : Duration) : (fanOut now d s).nec = (stepNec s.config now d s.nec s.rep).1 := rfl
@[simp] theorem fanOut_pan (s : State) (now : Time) (d : Duration) : (fanOut now d s).pan = (stepPlain s.config .pan .panasonic assemblePan d s.pan).1 := rfl
@[simp] theorem fanOut_sony8 (s : State) (now : Time) (d : Duration) : (fanOut now d s).sony8 = (stepPlain s.config .sony .sony8 assembleSony8 d s.sony8).1 := rfl
@[simp] theorem fanOut_sony12 (s : State) (now : Time) (d : Duration) : (fanOut now d s).sony12 = (stepPlain s.config .sony .sony12 assembleSony12 d s.sony12).1 := rfl
@[simp] theorem fanOut_sony15 (s : State) (now : Time) (d : Duration) : (fanOut now d s).sony15 = (stepPlain s.config .sony .sony15 assembleSony15 d s.sony15).1 := rfl
@[simp] theorem fanOut_sony20 (s : State) (now : Time) (d : Duration) : (fanOut now d s).sony20 = (stepPlain s.config .sony .sony20 assembleSony20 d s.sony20).1 := rfl
@[simp] theorem fanOut_rep (s : State) (now : Time) (d : Duration) : (fanOut now d s).rep = (stepNec s.config now d s.nec s.rep).2.1 := rfl
@[simp] theorem fanOut_txBusy (s : State) (now : Time) (d : Duration) : (fanOut now d s).txBusy = s.txBusy := rfl
@[simp] theorem fanOut_irOut (s : State) (now : Time) (d : Duration) : (fanOut now d s).irOut = s.irOut := rfl
@[simp] theorem fanOut_fault (s : State) (now : Time) (d : Duration) : (fanOut now d s).fault = s.fault := rfl
@[simp] theorem fanOut_responses (s : State) (now : Time) (d : Duration) : (fanOut now d s).responses = s.responses := rfl
@[simp] theorem fanOut_txEvents (s : State) (now : Time) (d : Duration) : (fanOut now d s).txEvents = s.txEvents := rfl
@[simp] theorem fanOut_inbox (s : State) (now : Time) (d : Duration) : (fanOut now d s).inbox = s.inbox := rfl
@[simp] theorem fanOut_turns (s : State) (now : Time) (d : Duration) : (fanOut now d s).turns = s.turns := rfl

end Sys2Proof.Machine
end

