-- ==== Sys2Proof/Laws/Ops.lean ====
section
/-! SUPPORT. One lemma per shared operation that says everything it can do: the fault gate, the NEW bit and the tag, bit writes, the agents' queues, the waits. -/

namespace Sys2Proof.Machine

/-- An operation behind the fault gate answers a next state exactly when FAULT is clear and the operation does. -/
theorem whileUnfaulted_eq_next {s t : State} {op : Result} :
    whileUnfaulted s op = .next t ↔ s.fault = none ∧ op = .next t := by
  unfold whileUnfaulted
  split <;> simp_all

theorem whileUnfaulted_of_clear {s : State} (h : s.fault = none) (op : Result) : whileUnfaulted s op = op := by
  simp [whileUnfaulted, h]

theorem whileUnfaulted_of_set {s : State} {f : Fault} (h : s.fault = some f) (op : Result) :
    whileUnfaulted s op = .fault f := by
  simp [whileUnfaulted, h]

@[simp] theorem next_inj {s t : State} : (Host.Outcome.next s : Result) = .next t ↔ s = t :=
  ⟨fun h => by injection h, fun h => by rw [h]⟩

/-- An unconditional effect behind the fault gate. -/
theorem whileUnfaulted_next_iff {s t u : State} : whileUnfaulted s (.next u) = .next t ↔ s.fault = none ∧ t = u := by
  rw [whileUnfaulted_eq_next, next_inj, eq_comm (a := u)]

@[simp] theorem isNew_clearNew (s : State) : s.clearNew.isNew = false := by
  show (0#1 ++ s.tag).getLsbD 7 = false
  rw [BitVec.getLsbD_append]
  rfl

@[simp] theorem tag_clearNew (s : State) : s.clearNew.tag = s.tag := by
  apply BitVec.eq_of_getLsbD_eq
  intro i hi
  simp only [State.tag, State.clearNew_proto, BitVec.getLsbD_extractLsb', BitVec.getLsbD_append, Nat.zero_add]
  simp [hi]

theorem isNew_publishedProto (tag : Tag) : (publishedProto tag).getLsbD 7 = true := by
  cases tag <;> decide

@[simp] theorem publishedProto_new (tag : Tag) : (publishedProto tag)[7] = true := by
  cases tag <;> decide

@[simp] theorem tag_publishedProto (tag : Tag) : (publishedProto tag).extractLsb' 0 7 = tag.code := by
  cases tag <;> decide

/-- A bit write changes the addressed bit alone, and nothing when the index is outside the buffer. -/
theorem getLsbD_writeBit {n : Nat} (buf : BitVec n) (i : Nat) (b : Bool) (j : Nat) :
    (writeBit buf i b).getLsbD j = if j = i ∧ i < n then b else buf.getLsbD j := by
  have hmask : (1#n <<< i).getLsbD j = decide (j = i ∧ i < n) := by
    rw [← BitVec.twoPow_eq, BitVec.getLsbD_twoPow]
    simp [eq_comm, Bool.and_comm]
  unfold writeBit
  split
  · rename_i hb
    subst hb
    rw [BitVec.getLsbD_or, hmask]
    by_cases h : j = i ∧ i < n <;> simp [h]
  · rename_i hb
    rw [BitVec.getLsbD_and, BitVec.getLsbD_not, hmask]
    by_cases h : j = i ∧ i < n
    · simp [h, hb]
    · by_cases hj : j < n
      · simp [h, hj]
      · simp [h, hj, BitVec.getLsbD_of_ge buf j (by omega)]

@[simp] theorem of_put_self (q : Inbox) (a : Agent) (ws : List CommandWord) : (q.put a ws).of a = ws := by
  cases a <;> rfl

theorem of_put_other (q : Inbox) {a b : Agent} (h : a ≠ b) (ws : List CommandWord) : (q.put a ws).of b = q.of b := by
  cases a <;> cases b <;> first | rfl | exact absurd rfl h

@[simp] theorem put_put (q : Inbox) (a : Agent) (ws vs : List CommandWord) : (q.put a ws).put a vs = q.put a vs := by
  cases a <;> rfl

@[simp] theorem put_of (q : Inbox) (a : Agent) : q.put a (q.of a) = q := by
  cases a <;> rfl

/-- Every FSM state has its own two bits, and every two bits name a state (R34). -/
@[simp] theorem FsmState.ofCode_code (q : FsmState) : FsmState.ofCode q.code = q := by
  cases q <;> rfl

@[simp] theorem FsmState.code_ofCode (v : BitVec 2) : (FsmState.ofCode v).code = v := by
  revert v
  decide

/-- The midpoint never wraps, whatever the two lengths (R113). -/
@[simp] theorem midpoint_toNat (zero one : Duration) :
    (midpoint zero one).toNat = (zero.toNat + one.toNat) / 2 := by
  have := zero.isLt
  have := one.isLt
  rw [midpoint, BitVec.toNat_ofNat]
  omega

@[simp] theorem stBits_idle {n : Nat} : (Decoder.idle : Decoder n).stBits = 0#2 := rfl

/-- Every supported tag has its own number, and the number names it. -/
@[simp] theorem ofCode_code (t : Tag) : Tag.ofCode t.code = some t := by
  cases t <;> decide

end Sys2Proof.Machine
end

