-- ==== Sys2Proof/Laws/Exec.lean ====
section
/-! SUPPORT. What each operation does when it answers a next state: one inversion lemma per meaning, cited instead of unfolding it. -/

namespace Sys2Proof.Machine

/-- Arbitration, debounce and publication: nothing, or the publication of the first result. -/
theorem arbitrate_cases (rs : List Decoded) (s : State) :
    (arbitrate rs s = s ∧ (rs = [] ∨ s.suppresses = true)) ∨
    (∃ r rest, rs = r :: rest ∧ s.suppresses = false ∧ arbitrate rs s = s.publish r) := by
  cases rs with
  | nil => exact .inl ⟨rfl, .inl rfl⟩
  | cons r rest =>
    cases h : s.suppresses
    · exact .inr ⟨r, rest, rfl, rfl, by simp [arbitrate, h]⟩
    · exact .inl ⟨by simp [arbitrate, h], .inr rfl⟩

/-- The fan-out of an accepted EDGE: every instance stepped on the classified duration, LAST_EDGE already written. -/
def fannedOut (now : Time) (s : State) : State :=
  fanOut now (classify now s.lastEdge) (s.setLastEdge now)

/-- An accepted EDGE ends in the fanned-out state, or in the publication of a result of the fan-out over it. -/
theorem acceptEdge_cases (now : Time) (s : State) :
    acceptEdge now s = fannedOut now s ∨
    (∃ r rest, results now (classify now s.lastEdge) (s.setLastEdge now) = r :: rest ∧
      s.config.debounce ≤ sub32 now s.lastEvent ∧ acceptEdge now s = (fannedOut now s).publish r) := by
  rcases arbitrate_cases (results now (classify now s.lastEdge) (s.setLastEdge now)) (fannedOut now s) with
    ⟨h, -⟩ | ⟨r, rest, hr, hd, h⟩
  · exact .inl h
  · refine .inr ⟨r, rest, hr, ?_, h⟩
    simp only [State.suppresses, fannedOut, fanOut_lastEdge, fanOut_lastEvent, fanOut_config, State.setLastEdge_lastEdge,
      State.setLastEdge_lastEvent, State.setLastEdge_config] at hd
    exact BitVec.not_lt.1 (of_decide_eq_false hd)

theorem execEdge_next {ts : Time} {s t : State} :
    exec (.edge ts) s = .next t ↔
      s.fault = none ∧ (s.dropsEdge = true ∧ t = s ∨ s.dropsEdge = false ∧ t = acceptEdge ts s) := by
  simp only [exec, execEdge, whileUnfaulted_eq_next, next_inj]
  cases s.dropsEdge <;> simp [eq_comm]

theorem execAvail_next {s t : State} :
    exec .avail s = .next t ↔ s.fault = none ∧ t = s.respond (availResponse s.proto) :=
  whileUnfaulted_next_iff

theorem execRead_next {s t : State} :
    exec .read s = .next t ↔ s.fault = none ∧ t = s.clearNew.respond (readResponse s.proto s.addr s.cmd) :=
  whileUnfaulted_next_iff

theorem execSend_next {sel : BitVec 7} {a : BitVec 16} {c : BitVec 32} {s t : State} :
    exec (.send sel a c) s = .next t ↔
      s.fault = none ∧
        (s.txBusy = true ∧ t = s ∨
         s.txBusy = false ∧ envelope s.config sel a c = none ∧ t = s.setFault (.txUnsupported sel) ∨
         s.txBusy = false ∧ ∃ tx, envelope s.config sel a c = some tx ∧ t = s.startTx tx) := by
  simp only [exec, execSend, whileUnfaulted_eq_next]
  cases s.txBusy <;> cases h : envelope s.config sel a c <;> simp [waits, raiseFault, eq_comm]

theorem execTxdone_next {s t : State} :
    exec .txdone s = .next t ↔
      s.fault = none ∧ (s.txBusy = true ∧ t = s.clearBusy.drive none ∨ s.txBusy = false ∧ t = s) := by
  simp only [exec, execTxdone, whileUnfaulted_eq_next]
  cases s.txBusy <;> simp [waits, eq_comm]

theorem execReset_next {s t : State} :
    exec .reset s = .next t ↔ s.fault = none ∧ t = s.abortTx.resetRegisters :=
  whileUnfaulted_next_iff

/-- No operation of this block is refused once it is decoded. -/
theorem exec_ne_refused (i : Instr) (s : State) (r : Refusal) : exec i s ≠ .refused r := by
  cases i <;> simp only [exec, execEdge, execAvail, execRead, execSend, execTxdone, execReset] <;>
    unfold whileUnfaulted <;> cases s.fault <;> simp
  · split <;> [skip; split] <;> simp [waits, raiseFault]
  · split <;> simp [waits]

/-- An operation leaves the words and turns of the agents and the configuration alone. -/
theorem exec_next_interface {i : Instr} {s t : State} (h : exec i s = .next t) :
    t.inbox = s.inbox ∧ t.turns = s.turns ∧ t.config = s.config := by
  cases i with
  | edge ts =>
    obtain ⟨-, ⟨-, rfl⟩ | ⟨-, rfl⟩⟩ := execEdge_next.1 h
    · exact ⟨rfl, rfl, rfl⟩
    · rcases acceptEdge_cases ts s with e | ⟨r, rest, -, -, e⟩ <;> rw [e] <;> exact ⟨rfl, rfl, rfl⟩
  | avail => obtain ⟨-, rfl⟩ := execAvail_next.1 h; exact ⟨rfl, rfl, rfl⟩
  | read => obtain ⟨-, rfl⟩ := execRead_next.1 h; exact ⟨rfl, rfl, rfl⟩
  | send sel a c =>
    obtain ⟨-, ⟨-, rfl⟩ | ⟨-, -, rfl⟩ | ⟨-, tx, -, rfl⟩⟩ := execSend_next.1 h <;> exact ⟨rfl, rfl, rfl⟩
  | txdone => obtain ⟨-, ⟨-, rfl⟩ | ⟨-, rfl⟩⟩ := execTxdone_next.1 h <;> exact ⟨rfl, rfl, rfl⟩
  | reset =>
    obtain ⟨-, rfl⟩ := execReset_next.1 h
    unfold State.abortTx
    split <;> exact ⟨rfl, rfl, rfl⟩

end Sys2Proof.Machine
end

