-- ==== Sys2Proof/Laws/Decoders.lean ====
section
/-! SUPPORT. What one step of a decoder instance can do, and that every part of it keeps an instance legal. -/

namespace Sys2Proof.Machine

theorem idle_legal {n : Nat} (h : 0 < n) : (Decoder.idle : Decoder n).Legal where
  countInFrame := by simpa [Decoder.idle] using h
  restZero := by simp [Decoder.idle]
  emptyOutside := by simp [Decoder.idle]

/-- In range, the bit counter counts without wrapping. -/
theorem cnt_succ {n : Nat} {x : Decoder n} (hn : n ≤ 48) (hx : x.cnt.toNat < n) :
    (x.cnt + 1#6).toNat = x.cnt.toNat + 1 := by
  rw [BitVec.toNat_add]
  have : (1#6).toNat = 1 := rfl
  omega

/-- Taking a bit: a mismatch discards the frame, the last bit reports it, any other bit is appended. -/
theorem takeBit_cases {n : Nat} (t : Timing) (d : Duration) (onward : FsmState) (x : Decoder n) :
    (bitval t d = none ∧ takeBit t d onward x = (Decoder.idle, .nothing)) ∨
    (∃ b, bitval t d = some b ∧
      ((x.cnt + 1#6).toNat = n ∧ takeBit t d onward x = (Decoder.idle, .frame (writeBit x.buf x.cnt.toNat b)) ∨
       (x.cnt + 1#6).toNat ≠ n ∧
        takeBit t d onward x = (⟨onward, x.cnt + 1#6, writeBit x.buf x.cnt.toNat b⟩, .nothing))) := by
  unfold takeBit
  cases h : bitval t d with
  | none => exact .inl ⟨rfl, rfl⟩
  | some b =>
    refine .inr ⟨b, rfl, ?_⟩
    by_cases hc : (x.cnt + 1#6).toNat = n
    · exact .inl ⟨hc, by simp [hc]⟩
    · exact .inr ⟨hc, by simp only [if_neg hc]⟩

/-- The half that carries no value: it fits and the instance goes on, or the frame is discarded. -/
theorem halfStep_cases {n : Nat} (t : Timing) (d : Duration) (onward : FsmState) (x : Decoder n) :
    (t.half.window.contains d = true ∧ halfStep t d onward x = ({ x with st := onward }, .nothing)) ∨
    (t.half.window.contains d = false ∧ halfStep t d onward x = (Decoder.idle, .nothing)) := by
  unfold halfStep
  cases t.half.window.contains d <;> simp

/-- State LEAD: the lead space, the repeat space, or a mismatch. -/
theorem leadStep_cases {n : Nat} (t : Timing) (rs : Option Window) (d : Duration) (x : Decoder n) :
    leadStep t rs d x = ({ x with st := .mark }, .nothing) ∨
    (∃ w, rs = some w ∧ w.contains d = true ∧ leadStep t rs d x = (Decoder.idle, .repeatCode)) ∨
    leadStep t rs d x = (Decoder.idle, .nothing) := by
  unfold leadStep
  split
  · exact .inl rfl
  · split
    · rename_i h
      cases rs with
      | none => simp at h
      | some w => exact .inr (.inl ⟨w, rfl, by simpa using h, rfl⟩)
    · exact .inr (.inr rfl)

/-- Everything one FSM step can do. -/
theorem fsmStep_cases {n : Nat} (kind : Kind) (t : Timing) (rs : Option Window) (d : Duration) (x : Decoder n) :
    fsmStep kind t rs d x = (Decoder.idle, .nothing) ∨
    fsmStep kind t rs d x = (⟨.lead, 0#6, 0#n⟩, .nothing) ∨
    (x.st = .idle ∧ fsmStep kind t rs d x = (x, .nothing)) ∨
    (x.st = .lead ∧ fsmStep kind t rs d x = leadStep t rs d x) ∨
    (∃ onward, (onward = .mark ∨ onward = .space) ∧ (x.st = .mark ∨ x.st = .space) ∧
      (fsmStep kind t rs d x = halfStep t d onward x ∨ fsmStep kind t rs d x = takeBit t d onward x)) := by
  unfold fsmStep
  split
  · exact .inl rfl
  · split
    · exact .inr (.inl rfl)
    · cases hst : x.st
      · exact .inr (.inr (.inl ⟨rfl, rfl⟩))
      · exact .inr (.inr (.inr (.inl ⟨rfl, rfl⟩)))
      · refine .inr (.inr (.inr (.inr ⟨.space, .inr rfl, .inl rfl, ?_⟩)))
        cases kind <;> simp
      · refine .inr (.inr (.inr (.inr ⟨.mark, .inl rfl, .inr rfl, ?_⟩)))
        cases kind <;> simp

theorem takeBit_legal {n : Nat} {t : Timing} {d : Duration} {onward : FsmState} {x : Decoder n}
    (hn : n ≤ 48) (ho : onward = .mark ∨ onward = .space) (hx : x.Legal) : (takeBit t d onward x).1.Legal := by
  have hpos : 0 < n := Nat.lt_of_le_of_lt (Nat.zero_le _) hx.countInFrame
  have hs := cnt_succ hn hx.countInFrame
  rcases takeBit_cases t d onward x with ⟨-, h⟩ | ⟨b, -, ⟨-, h⟩ | ⟨hne, h⟩⟩ <;> rw [h]
  · exact idle_legal hpos
  · exact idle_legal hpos
  · refine ⟨?_, fun i hi => ?_, fun hst => ?_⟩
    · have := hx.countInFrame
      simp only [hs] at *
      omega
    · simp only [hs] at hi
      rw [getLsbD_writeBit, if_neg (by omega)]
      exact hx.restZero i (by omega)
    · rcases ho with rfl | rfl <;> simp at hst

/-- An FSM step keeps an instance legal. -/
theorem fsmStep_legal {n : Nat} {kind : Kind} {t : Timing} {rs : Option Window} {d : Duration} {x : Decoder n}
    (hn : n ≤ 48) (hx : x.Legal) : (fsmStep kind t rs d x).1.Legal := by
  have hpos : 0 < n := Nat.lt_of_le_of_lt (Nat.zero_le _) hx.countInFrame
  rcases fsmStep_cases kind t rs d x with h | h | ⟨-, h⟩ | ⟨-, h⟩ | ⟨onward, ho, -, h | h⟩ <;> rw [h]
  · exact idle_legal hpos
  · exact ⟨by simpa using hpos, by simp, by simp⟩
  · exact hx
  · rcases leadStep_cases t rs d x with h | ⟨w, -, -, h⟩ | h <;> rw [h]
    · exact ⟨hx.countInFrame, hx.restZero, by simp⟩
    · exact idle_legal hpos
    · exact idle_legal hpos
  · rcases halfStep_cases t d onward x with ⟨-, h⟩ | ⟨-, h⟩ <;> rw [h]
    · exact ⟨hx.countInFrame, hx.restZero, by rcases ho with rfl | rfl <;> simp⟩
    · exact idle_legal hpos
  · exact takeBit_legal hn ho hx

/-- The step of an instance other than NEC: disabled and unmoved, or one FSM step and the assembly of its report. -/
theorem stepPlain_cases {n : Nat} (c : Config) (p : Proto) (tag : Tag) (assemble : BitVec n → Decoded) (d : Duration)
    (x : Decoder n) :
    (c.tagEnabled tag = false ∧ stepPlain c p tag assemble d x = (x, none)) ∨
    (c.tagEnabled tag = true ∧
      stepPlain c p tag assemble d x =
        ((fsmStep p.kind (c.timing p) none d x).1, plainResult assemble (fsmStep p.kind (c.timing p) none d x).2)) := by
  unfold stepPlain
  cases c.tagEnabled tag <;> simp

/-- A result of an instance other than NEC is the assembly of a full frame. -/
theorem plainResult_some {n : Nat} {assemble : BitVec n → Decoded} {r : FsmReport n} {o : Decoded}
    (h : plainResult assemble r = some o) : ∃ buf, r = .frame buf ∧ o = assemble buf := by
  cases r with
  | nothing => cases h
  | repeatCode => cases h
  | frame buf => exact ⟨buf, rfl, by simpa [plainResult, eq_comm] using h⟩

/-- The repeat memory and the result of a NEC assembly: both left alone, or a valid memory stamped with the edge's time and an enabled tag. -/
theorem assembleNec_cases (c : Config) (now : Time) (rep : RepeatMemory) (buf : BitVec 32) :
    assembleNec c now rep buf = (rep, none) ∨
    ∃ tag, (tag = .nec ∨ tag = .necExtended) ∧ c.tagEnabled tag = true ∧
      assembleNec c now rep buf =
        (RepeatMemory.store (buf.extractLsb' 0 16) (buf.extractLsb' 16 8) now,
         some ⟨tag, buf.extractLsb' 0 16, (buf.extractLsb' 16 8).setWidth 32⟩) := by
  unfold assembleNec
  simp only []
  generalize ht : (if buf.extractLsb' 8 8 = ~~~(buf.extractLsb' 0 8) then Tag.nec else Tag.necExtended) = tag
  have htag : tag = .nec ∨ tag = .necExtended := by
    rw [← ht]
    split
    · exact .inl rfl
    · exact .inr rfl
  split
  · exact .inl rfl
  · cases hen : c.tagEnabled tag
    · exact .inl (by simp)
    · exact .inr ⟨tag, htag, hen, by simp⟩

/-- The repeat code: nothing, or the remembered result with the memory refreshed. -/
theorem necRepeat_cases (c : Config) (now : Time) (rep : RepeatMemory) :
    necRepeat c now rep = (rep, none) ∨
    (rep.valid = true ∧ c.tagEnabled .necRepeat = true ∧
      necRepeat c now rep = ({ rep with time := now }, some ⟨.necRepeat, rep.addr, rep.cmd.setWidth 32⟩)) := by
  unfold necRepeat
  split
  · rename_i h
    exact .inr ⟨h.2.1, h.1, rfl⟩
  · exact .inl rfl

/-- The NEC instance's result: the memory left alone and nothing yielded, or a valid memory stamped with the edge's time and a NEC-family result. -/
theorem necResult_cases (c : Config) (now : Time) (rep : RepeatMemory) (r : FsmReport 32) :
    necResult c now rep r = (rep, none) ∨
    ∃ m o, necResult c now rep r = (m, some o) ∧ m.valid = true ∧ m.time = now ∧
      (o.tag = .nec ∨ o.tag = .necExtended ∨ o.tag = .necRepeat) := by
  cases r with
  | nothing => exact .inl rfl
  | repeatCode =>
    rcases necRepeat_cases c now rep with h | ⟨hv, -, h⟩
    · exact .inl h
    · exact .inr ⟨_, _, h, hv, rfl, .inr (.inr rfl)⟩
  | frame buf =>
    rcases assembleNec_cases c now rep buf with h | ⟨tag, ht, -, h⟩
    · exact .inl h
    · exact .inr ⟨_, _, h, rfl, rfl, by rcases ht with rfl | rfl <;> simp⟩

/-- The step of the NEC instance: disabled and unmoved, or one FSM step and its result. -/
theorem stepNec_cases (c : Config) (now : Time) (d : Duration) (x : Decoder 32) (rep : RepeatMemory) :
    (c.necEnabled = false ∧ stepNec c now d x rep = (x, rep, none)) ∨
    (c.necEnabled = true ∧
      stepNec c now d x rep =
        ((fsmStep .dist c.nec (some c.necRepeatSpace.window) d x).1,
         necResult c now rep (fsmStep .dist c.nec (some c.necRepeatSpace.window) d x).2)) := by
  unfold stepNec
  cases c.necEnabled <;> simp [Proto.kind]

/-- The results of a fan-out, instance by instance, highest priority first. -/
theorem results_eq (now : Time) (d : Duration) (s : State) :
    results now d s =
      (stepNec s.config now d s.nec s.rep).2.2.toList ++ (stepPlain s.config .pan .panasonic assemblePan d s.pan).2.toList ++
      (stepPlain s.config .sony .sony8 assembleSony8 d s.sony8).2.toList ++
      (stepPlain s.config .sony .sony12 assembleSony12 d s.sony12).2.toList ++
      (stepPlain s.config .sony .sony15 assembleSony15 d s.sony15).2.toList ++
      (stepPlain s.config .sony .sony20 assembleSony20 d s.sony20).2.toList := by
  unfold results
  generalize (stepNec s.config now d s.nec s.rep).2.2 = a
  generalize (stepPlain s.config .pan .panasonic assemblePan d s.pan).2 = b
  generalize (stepPlain s.config .sony .sony8 assembleSony8 d s.sony8).2 = e
  generalize (stepPlain s.config .sony .sony12 assembleSony12 d s.sony12).2 = f
  generalize (stepPlain s.config .sony .sony15 assembleSony15 d s.sony15).2 = g
  generalize (stepPlain s.config .sony .sony20 assembleSony20 d s.sony20).2 = h
  cases a <;> cases b <;> cases e <;> cases f <;> cases g <;> cases h <;> rfl

/-- Every result carries one of the eight tags that have a decoder (R3, R30). -/
theorem results_tag {now : Time} {d : Duration} {s : State} {r : Decoded} (h : r ∈ results now d s) :
    2#7 ≤ r.tag.code ∧ r.tag.code ≤ 9#7 := by
  have plain : ∀ {n : Nat} (p : Proto) (tag : Tag) (asm : BitVec n → Decoded) (x : Decoder n),
      (∀ b, (asm b).tag = tag) → (2#7 ≤ tag.code ∧ tag.code ≤ 9#7) →
      (stepPlain s.config p tag asm d x).2 = some r → 2#7 ≤ r.tag.code ∧ r.tag.code ≤ 9#7 := by
    intro n p tag asm x hasm htag hr
    rcases stepPlain_cases s.config p tag asm d x with ⟨-, e⟩ | ⟨-, e⟩ <;> rw [e] at hr
    · cases hr
    · obtain ⟨buf, -, rfl⟩ := plainResult_some hr
      rw [hasm buf]
      exact htag
  have nec : (stepNec s.config now d s.nec s.rep).2.2 = some r → 2#7 ≤ r.tag.code ∧ r.tag.code ≤ 9#7 := by
    intro hr
    rcases stepNec_cases s.config now d s.nec s.rep with ⟨-, e⟩ | ⟨-, e⟩ <;> rw [e] at hr
    · cases hr
    · rcases necResult_cases s.config now s.rep
        (fsmStep .dist s.config.nec (some s.config.necRepeatSpace.window) d s.nec).2 with e | ⟨m, o, e, -, -, ht⟩ <;>
        simp only [e] at hr
      · cases hr
      · cases hr
        rcases ht with ht | ht | ht <;> rw [ht] <;> decide
  simp only [results_eq, List.mem_append, Option.mem_toList] at h
  rcases h with ((((h | h) | h) | h) | h) | h
  · exact nec h
  · exact plain .pan .panasonic assemblePan s.pan (fun _ => rfl) (by decide) h
  · exact plain .sony .sony8 assembleSony8 s.sony8 (fun _ => rfl) (by decide) h
  · exact plain .sony .sony12 assembleSony12 s.sony12 (fun _ => rfl) (by decide) h
  · exact plain .sony .sony15 assembleSony15 s.sony15 (fun _ => rfl) (by decide) h
  · exact plain .sony .sony20 assembleSony20 s.sony20 (fun _ => rfl) (by decide) h

end Sys2Proof.Machine
end

