-- ==== Sys2Proof/Laws/PerInstr.lean ====
section
/-! SUPPORT. Statements made per operation, about the operation as a command word. -/

namespace Sys2Proof

/-- The word of an operation carries the opcode of R81 in `W[3:0]`, and its reserved bits of R82 are 0: the highest assigned bit is 35 for EDGE, 58 for SEND and 3 for the others. -/
def Laws.CarriesItsOpcode.Statement (i : Instr) : Prop :=
  match i with
  | .edge _ => opField (encode i) = 0x1#4 ∧ (encode i).toNat < 2 ^ 36
  | .avail => opField (encode i) = 0x2#4 ∧ (encode i).toNat < 2 ^ 4
  | .read => opField (encode i) = 0x3#4 ∧ (encode i).toNat < 2 ^ 4
  | .send _ _ _ => opField (encode i) = 0x4#4 ∧ (encode i).toNat < 2 ^ 59
  | .txdone => opField (encode i) = 0x5#4 ∧ (encode i).toNat < 2 ^ 4
  | .reset => opField (encode i) = 0xF#4 ∧ (encode i).toNat < 2 ^ 4

/-- The field in the lowest four bits of a concatenation is its last part. -/
theorem opField_append {n : Nat} (x : BitVec 60) (op : BitVec 4) : opField (x ++ op) = op ∧ (x.toNat < n → (x ++ op).toNat < 16 * n) := by
  refine ⟨?_, fun h => ?_⟩
  · apply BitVec.eq_of_getLsbD_eq
    intro i hi
    rw [opField, BitVec.getLsbD_extractLsb', BitVec.getLsbD_append]
    simp [hi]
  · rw [BitVec.toNat_append, Nat.shiftLeft_eq, Nat.mul_comm, ← Nat.two_pow_add_eq_or_of_lt op.isLt]
    have := op.isLt
    omega

/-- A field with zeros above it is no larger than the field. -/
theorem toNat_zero_append {m n : Nat} (x : BitVec n) : (0#m ++ x).toNat < 2 ^ n := by
  rw [BitVec.toNat_append]
  simp [x.isLt]

theorem Laws.CarriesItsOpcode.edge (ts : Time) : Laws.CarriesItsOpcode.Statement (.edge ts) :=
  ⟨(opField_append (n := 2 ^ 32) (0#28 ++ ts) 0x1#4).1,
   (opField_append (n := 2 ^ 32) (0#28 ++ ts) 0x1#4).2 (toNat_zero_append ts)⟩

theorem Laws.CarriesItsOpcode.avail : Laws.CarriesItsOpcode.Statement .avail := ⟨by decide, by decide⟩

theorem Laws.CarriesItsOpcode.read : Laws.CarriesItsOpcode.Statement .read := ⟨by decide, by decide⟩

theorem Laws.CarriesItsOpcode.send (sel : BitVec 7) (addr : BitVec 16) (cmd : BitVec 32) :
    Laws.CarriesItsOpcode.Statement (.send sel addr cmd) := by
  have e : (encode (.send sel addr cmd) : BitVec 64) = (0#5 ++ (cmd ++ addr ++ sel) : BitVec 60) ++ 0x4#4 := by
    apply BitVec.eq_of_getLsbD_eq
    intro i hi
    simp only [encode, BitVec.getLsbD_append]
    grind
  unfold Laws.CarriesItsOpcode.Statement
  simp only [e]
  exact ⟨(opField_append (n := 2 ^ 55) _ 0x4#4).1, (opField_append (n := 2 ^ 55) _ 0x4#4).2 (toNat_zero_append _)⟩

theorem Laws.CarriesItsOpcode.txdone : Laws.CarriesItsOpcode.Statement .txdone := ⟨by decide, by decide⟩

theorem Laws.CarriesItsOpcode.reset : Laws.CarriesItsOpcode.Statement .reset := ⟨by decide, by decide⟩

end Sys2Proof
end

