-- ==== Sys2Proof/Laws/Step.lean ====
section
/-! SUPPORT. Everything one step can do when it answers a next state. -/

namespace Sys2Proof.Machine

/-- A step to a next state waits, passes a turn, or runs the operation whose word its agent holds. -/
theorem step_next_cases {s t : State} (h : step s = .next t) :
    s.config.wellFormed = true ∧ s.fault = none ∧
      ((s.turns = [] ∧ t = s) ∨ (s.turns ≠ [] ∧ t = s.passTurn) ∨
       ∃ a rest w ws i, s.turns = a :: rest ∧ s.inbox.of a = w :: ws ∧ decode w = .ok i ∧ owner i = a ∧
         enabled i s = true ∧ exec i (s.takeWord a) = .next t) := by
  simp only [step, advance] at h
  split at h
  · rename_i hwf
    obtain ⟨hf, h⟩ := whileUnfaulted_eq_next.1 h
    refine ⟨hwf, hf, ?_⟩
    unfold runTurn at h
    split at h
    · exact .inl ⟨by assumption, by simpa using h.symm⟩
    · rename_i a rest hturns
      split at h
      · exact .inr (.inl ⟨by simp [hturns], by simpa using h.symm⟩)
      · rename_i w ws hq
        unfold issue at h
        split at h
        · cases h
        · rename_i i hdec
          split at h
          · cases h
          · rename_i hown
            split at h
            · rename_i hen
              exact .inr (.inr ⟨a, rest, w, ws, i, hturns, hq, hdec, by simpa using hown, hen, h⟩)
            · exact .inr (.inl ⟨by simp [hturns], by simpa using h.symm⟩)
  · cases h

/-- The next step after a word was placed is the issue of that word by its owner. -/
theorem step_withFetchWord {s : State} (hwf : s.config.wellFormed = true) (hf : s.fault = none) (nbits w : Nat) :
    step (s.withFetchWord nbits w) =
      issue (wordOwner (tableWord nbits w)) (tableWord nbits w) (s.withFetchWord nbits w) := by
  have hwf' : (s.withFetchWord nbits w).config.wellFormed = true := hwf
  have hf' : (s.withFetchWord nbits w).fault = none := hf
  simp only [step, advance, hwf', if_true, whileUnfaulted_of_clear hf', runTurn]
  simp [State.withFetchWord, deliverTableWord]

end Sys2Proof.Machine
end

