-- ==== Sys2Proof/Tests/Slice0.lean ====
section
/-! SUPPORT. Small tests: ill-formed configurations, words of 95_test_vectors.md, one step per operation with the expected values of that file's vectors (named V-…), and a witness for every statement that has hypotheses. -/

namespace Sys2Proof.Tests

open Sys2Proof.Machine

/-- The next state of an outcome, if it is one. -/
def nextOf : Result → Option State
  | .next s => some s
  | .fault _ => none
  | .refused _ => none

/-- The reason of a fault, if the outcome is one. -/
def faultOf : Result → Option Fault
  | .next _ => none
  | .fault f => some f
  | .refused _ => none

/-- The reason of a refusal, if the outcome is one. -/
def refusalOf : Result → Option Refusal
  | .next _ => none
  | .fault _ => none
  | .refused r => some r

/-- CleanEntry with a given ENABLE and the defaults (R271). -/
def clean (enable : BitVec 16) : State := State.powerOn (Config.standard enable)

/-- The NEC family alone. -/
def family : BitVec 16 := 0x001C#16

/-- The start of V-D3 (R173): the NEC instance awaits the last bit of (NEC, 0x00FF, 0x1A). -/
def lastBit : State :=
  { clean family with lastEdge := 1065730#32, nec := ⟨.space, 31#6, 0x651A00FF#32⟩ }

/-- A result is pending: the state after V-D3. -/
def pending : State :=
  { clean family with
    lastEdge := 1067420#32, lastEvent := 1067420#32, proto := 0x82#8, addr := 0x00FF#16, cmd := 0x1A#32
    rep := ⟨true, 0x00FF#16, 0x1A#8, 1067420#32⟩ }

/-- A transmission is in flight: SEND NEC_REPEAT. -/
def sending : State :=
  { clean family with txBusy := true, irOut := some (repeatFrame (Config.standard family)) }

/-- One agent's word at the front, and that agent at turn. -/
def holding (a : Agent) (w : CommandWord) (s : State) : State := s.deliverNext a w

/-! ### Ill-formed configurations, one per check of R9 -/

theorem test_default_config_wellFormed : (Config.standard 0x03FC#16).wellFormed = true := by decide

theorem test_wf_refuses_empty_enabled : (Config.standard 0x0403#16).enabledNonempty = false := by decide

theorem test_wf_refuses_unordered_window :
    Timing.windowsOrdered (Config.standard family).nec [⟨2812#16, 1688#16⟩] = false := by decide

theorem test_wf_refuses_lead_window_overlap :
    Timing.windowsDisjoint { (Config.standard family).sony with bitHi := 1800#16 } [] = false := by decide

theorem test_wf_refuses_repeat_window_overlap :
    Timing.windowsDisjoint (Config.standard family).nec [⟨1688#16, 3375#16⟩] = false := by decide

theorem test_wf_refuses_unordered_bit_bounds :
    Timing.bitBoundsOrdered { (Config.standard family).pan with bitMid := 323#16 } = false := by decide

theorem test_wf_refuses_low_timeout :
    Timing.timeoutAbove { (Config.standard family).nec with timeout := 11250#16 } [] = false := by decide

theorem test_wf_refuses_full_duty : Config.carrierOk { Config.standard family with dutyNum := 2 } = false := by decide

theorem test_wf_refuses_fast_carrier :
    Config.carrierOk { Config.standard family with carrierPan := 1000000001 } = false := by decide

theorem test_step_refuses_ill_formed_config :
    refusalOf (step (holding .consumer 2#64 (clean 0#16))) = some .badConfiguration := by decide

/-- A timestamp of 33 bits does not fit its field (R89). -/
theorem test_assembler_refuses_wide_timestamp :
    AsmLine.words (Config.standard family) (.edge 4294967296) = none := by decide

/-! ### Decoding: words written out from R82 and the vectors V-E -/

/-- Every row's word, written bit field by bit field as R82 lays it out. -/
theorem test_decode_edge_fields : decode 0xFFFFFFFF1#64 = .ok (.edge 0xFFFFFFFF#32) := by decide

theorem test_decode_avail : decode 0b0010#64 = .ok .avail := by decide

theorem test_decode_read : decode 0b0011#64 = .ok .read := by decide

/-- `0x3 << 27 | 0x5 << 11 | 0x7 << 4 | 4`. -/
theorem test_decode_send_fields : decode 0x0000000018002874#64 = .ok (.send 0x07#7 0x0005#16 0x3#32) := by decide

theorem test_decode_txdone : decode 0b0101#64 = .ok .txdone := by decide

theorem test_decode_reset : decode 0b1111#64 = .ok .reset := by decide

/-- V-E9 to V-E14. -/
theorem test_decode_refuses_invalid :
    [0x0#64, 0x6#64, 0xE#64, 0x0000001000000001#64, 0x12#64, 0x0800000000000004#64].all
      (fun w => (decode w).toOption.isNone) = true := by decide

theorem test_decodeTableWord_send : decodeTableWord 64 0xD007F824 = some (.send 0x02#7 0x00FF#16 0x1A#32) := by decide

/-! ### Assembly (R89, R90) -/

/-- P4's `SEND SONY12, 1, 0x15`. -/
theorem test_assemble_send :
    assembleLine (Config.standard family)
      ['S', 'E', 'N', 'D', ' ', 'S', 'O', 'N', 'Y', '1', '2', ',', ' ', '1', ',', ' ', '0', 'x', '1', '5', ';', 'c'] =
      some [0x00000000A8000874#64] := by decide

/-- `EDGES 4294967295: 1` wraps to 0 (R90). -/
theorem test_expand_edges_wraps :
    AsmLine.expand (Config.standard family) (.edges 4294967295 [1]) = some [.edge 0xFFFFFFFF#32, .edge 0#32] := by decide

/-- The repeat frame of P2 at 1108000 has the four edges of V-R1. -/
theorem test_expand_repeat_frame :
    AsmLine.expand (Config.standard family) (.frame 4 0 0 1108000) =
      some [.edge 1108000#32, .edge 1117000#32, .edge 1119250#32, .edge 1119810#32] := by decide

/-! ### The classifier (V-C4, V-C6, V-C7) -/

theorem test_classify_wraps : classify 0x00000100#32 0xFFFFFF00#32 = 512#16 := by decide

theorem test_classify_backwards_saturates : classify 99#32 100#32 = 0xFFFF#16 := by decide

theorem test_classify_largest_unsaturated : classify 65534#32 0#32 = 0xFFFE#16 := by decide

/-! ### The decoders (V-F, V-A) -/

/-- V-F10: a one-space appends bit 3. -/
theorem test_fsm_takes_one_bit :
    fsmStep .dist (Config.standard family).nec none 1690#16 (⟨.space, 3#6, 0b101#32⟩ : Decoder 32) =
      (⟨.mark, 4#6, 0b1101#32⟩, .nothing) := by decide

/-- V-F17: the twelfth mark completes SONY12 with bit 11 set. -/
theorem test_fsm_width_completes :
    fsmStep .width (Config.standard family).sony none 1200#16 (⟨.mark, 11#6, 0x095#12⟩ : Decoder 12) =
      (Decoder.idle, .frame 0x895#12) := by decide

/-- V-F19: a one-length space is a mismatch in a WIDTH protocol. -/
theorem test_fsm_width_space_mismatch :
    fsmStep .width (Config.standard family).sony none 1200#16 (⟨.space, 4#6, 0x5#12⟩ : Decoder 12) =
      (Decoder.idle, .nothing) := by decide

/-- V-A2, V-A3, V-A4. -/
theorem test_assemble_nec_extended :
    (assembleNec (Config.standard family) 7#32 RepeatMemory.cleared 0xE51A1234#32).2 =
      some ⟨.necExtended, 0x1234#16, 0x1A#32⟩ := by decide

theorem test_assemble_nec_checks :
    (assembleNec (Config.standard 0x0014#16) 7#32 RepeatMemory.cleared 0xE51A1234#32).2 = none ∧
    (assembleNec (Config.standard family) 7#32 RepeatMemory.cleared 0xE41A00FF#32).2 = none := by decide

/-- V-A13. -/
theorem test_assemble_sony20_full : assembleSony20 0xFFFFF#20 = ⟨.sony20, 0x001F#16, 0x7FFF#32⟩ := by decide

/-- V-R2 and V-R3: the repeat window is strict. -/
theorem test_necRepeat_window_is_strict :
    (necRepeat (Config.standard family) 1367419#32 ⟨true, 0xFF#16, 0x1A#8, 1067420#32⟩).2.isSome = true ∧
    (necRepeat (Config.standard family) 1367420#32 ⟨true, 0xFF#16, 0x1A#8, 1067420#32⟩).2.isSome = false := by decide

/-! ### EDGE -/

/-- V-D3. -/
theorem test_edge_publishes :
    (nextOf (exec (.edge 1067420#32) lastBit)).map
      (fun s => (s.proto, s.addr, s.cmd, s.lastEvent, s.nec, s.rep)) =
      some (0x82#8, 0x00FF#16, 0x1A#32, 1067420#32, Decoder.idle, ⟨true, 0x00FF#16, 0x1A#8, 1067420#32⟩) := by decide

/-- V-D5's debounce: 299999 after the last event the completion is suppressed, and the repeat memory is still written. -/
theorem test_edge_suppresses :
    (nextOf (exec (.edge 1067420#32) { lastBit with lastEvent := 767421#32 })).map
      (fun s => (s.proto, s.lastEvent, s.rep.valid)) = some (0x00#8, 767421#32, true) := by decide

/-! ### AVAILABLE and READ (V-Q3, V-Q4, V-Q8) -/

theorem test_avail_answers_new :
    (nextOf (exec .avail pending)).map (fun s => (s.responses, s.proto)) = some ([1#64], 0x82#8) := by decide

theorem test_read_answers_and_clears :
    (nextOf (exec .read pending)).map (fun s => (s.responses, s.proto)) = some ([0x000000001A00FF02#64], 0x02#8) := by decide

theorem test_read_full_fields :
    (nextOf (exec .read { pending with proto := 0x83#8, addr := 0xFFFF#16, cmd := 0xFFFFFFFF#32 })).map State.responses =
      some [0x00FFFFFFFFFFFF03#64] := by decide

/-! ### SEND and TX_DONE (V-TX3, V-TX6, V-T2 to V-T5) -/

theorem test_send_repeat_frame :
    (nextOf (exec (.send 0x04#7 0#16 0#32) (clean family))).map (fun s => (s.txBusy, s.irOut)) =
      some (true, some ⟨.nec, [⟨.mark, 9000#16⟩, ⟨.space, 2250#16⟩, ⟨.mark, 560#16⟩]⟩) := by decide

/-- P4: the segment lengths of SEND SONY12, 1, 0x15. -/
theorem test_send_sony12_segments :
    (envelope (Config.standard family) 0x07#7 1#16 0x15#32).map (fun t => t.segments.map Segment.length) =
      some [2400#16, 600#16, 1200#16, 600#16, 600#16, 600#16, 1200#16, 600#16, 600#16, 600#16, 1200#16, 600#16, 600#16,
        600#16, 600#16, 600#16, 1200#16, 600#16, 600#16, 600#16, 600#16, 600#16, 600#16, 600#16, 600#16, 600#16, 600#16] := by
  decide

theorem test_send_unsupported_sets_fault :
    (nextOf (exec (.send 0x7F#7 0#16 0#32) (clean family))).map (fun s => (s.fault, s.txEvents)) =
      some (some (.txUnsupported 0x7F#7), []) := by decide

theorem test_txdone_ends : (nextOf (exec .txdone sending)).map (fun s => (s.txBusy, s.irOut)) = some (false, none) := by decide

/-! ### RESET (V-X2, V-X3) -/

theorem test_reset_aborts_transmission :
    (nextOf (exec .reset { sending with lastEdge := 5#32 })).map (fun s => (s.txBusy, s.lastEdge, s.txEvents)) =
      some (false, 0#32, [.abort]) := by decide

theorem test_reset_stops_when_faulted :
    faultOf (exec .reset { clean family with fault := some (.txUnsupported 0x00#7) }) = some (.txUnsupported 0x00#7) := by
  decide

/-! ### The carrier (V-K1, V-K2) -/

theorem test_carrier_nec :
    [0, 13156, 13157, 26314, 26315, 8999730, 8999999, 9000000].map sending.irLevel =
      [true, true, false, false, true, true, true, false] := by decide

/-! ### The step, from State.reset with one word placed -/

theorem test_step_runs_avail :
    (nextOf (step (State.reset.withFetchWord 64 0x2))).map (fun s => (s.responses, s.turns)) = some ([0#64], []) := by decide

theorem test_step_runs_edge :
    (nextOf (step (State.reset.withFetchWord 64 0xF42401))).map State.lastEdge = some 1000000#32 := by decide

/-- V-T4: TX_DONE while idle waits, and its word stays with the transmitter. -/
theorem test_step_txdone_waits :
    (nextOf (step (State.reset.withFetchWord 64 0x5))).map (fun s => (s.inbox.transmitter, s.turns)) = some ([5#64], []) := by
  decide

theorem test_step_refuses_invalid :
    refusalOf (step (State.reset.withFetchWord 64 0x6)) = some (.invalidWord (.reservedOpcode 0x6#4)) := by decide

/-! ### Witnesses: each statement's hypotheses are met together, at a boundary of each clause -/

theorem witness_EncodeOfDecodeIsTheWord : decode 0x07FFFFFFFFFFF824#64 = .ok (.send 0x02#7 0xFFFF#16 0xFFFFFFFF#32) := by decide

/-- The premises that the statements about a step share. -/
def AtTurn (s : State) (a : Agent) (rest : List Agent) (w : CommandWord) (ws : List CommandWord) : Prop :=
  s.config.wellFormed = true ∧ s.fault = none ∧ s.turns = a :: rest ∧ s.inbox.of a = w :: ws

theorem witness_StepRunsTheDecodedOperation :
    AtTurn (holding .consumer 0x3#64 pending) .consumer [] 0x3#64 [] ∧ decode 0x3#64 = .ok .read ∧
    owner .read = .consumer ∧ enabled .read (holding .consumer 0x3#64 pending) = true :=
  ⟨⟨by decide, rfl, rfl, rfl⟩, by decide, rfl, rfl⟩

theorem witness_StuckAgentKeepsItsWord_send :
    AtTurn (holding .consumer 0x44#64 sending) .consumer [] 0x44#64 [] ∧
    decode 0x44#64 = .ok (.send 0x04#7 0#16 0#32) ∧ (holding .consumer 0x44#64 sending).txBusy = true :=
  ⟨⟨by decide, rfl, rfl, rfl⟩, by decide, rfl⟩

theorem witness_StuckAgentKeepsItsWord_txdone :
    AtTurn (holding .transmitter 0x5#64 pending) .transmitter [] 0x5#64 [] ∧ decode 0x5#64 = .ok .txdone ∧
    (holding .transmitter 0x5#64 pending).txBusy = false :=
  ⟨⟨by decide, rfl, rfl, rfl⟩, by decide, rfl⟩

theorem witness_StepRefusesInvalidAndForeignWords :
    AtTurn (holding .host 0x12#64 pending) .host [] 0x12#64 [] ∧ decode 0x12#64 = .error (.reservedBits 0x12#64) ∧
    AtTurn (holding .consumer 0x5#64 pending) .consumer [] 0x5#64 [] ∧ decode 0x5#64 = .ok .txdone ∧
    owner .txdone ≠ .consumer :=
  ⟨⟨by decide, rfl, rfl, rfl⟩, by decide, ⟨by decide, rfl, rfl, rfl⟩, by decide, by decide⟩

theorem witness_FaultIsSticky :
    ∃ (s : State) (f : Fault), s.fault = some f ∧ s.config.wellFormed = true :=
  ⟨{ clean family with fault := some (.txUnsupported 0x0A#7) }, _, rfl, by decide⟩

theorem witness_IllFormedConfigurationIsRefused : (clean 0#16).config.wellFormed = false := by decide

theorem witness_BitValueOfADuration :
    ∃ t : Timing, t = (Config.standard family).nec ∧ t.bitLo ≤ 420#16 ∧ 1124#16 < t.bitMid ∧ t.bitMid ≤ 1125#16 ∧
      2112#16 ≤ t.bitHi ∧ ¬(t.bitLo ≤ 419#16) ∧ ¬(2113#16 ≤ t.bitHi) :=
  ⟨_, rfl, by decide⟩

theorem witness_TimeoutSendsAnyStateToIdle : (Config.standard family).nec.timeout ≤ 0xFFFF#16 := by decide

theorem witness_TimeoutFitsNoWindow :
    (Config.standard family).nec.wellFormed [(Config.standard family).necRepeatSpace.window] = true ∧
    (Config.standard family).nec.timeout ≤ 0xFFFF#16 := by decide

theorem witness_LeadMarkRestartsAnyState :
    ∃ t : Timing, t = (Config.standard family).nec ∧ 11250#16 < t.timeout ∧ t.leadMark.window.lo ≤ 11250#16 ∧
      11250#16 ≤ t.leadMark.window.hi :=
  ⟨_, rfl, by decide⟩

/-- One duration below the timeout and outside the lead-mark window, with an instance in each of the four states. -/
theorem witness_TransitionsOfEachState :
    560#16 < (Config.standard family).nec.timeout ∧ ¬((Config.standard family).nec.leadMark.window.lo ≤ 560#16) ∧
    (Decoder.idle : Decoder 32).st = .idle ∧ (⟨.lead, 0#6, 0#32⟩ : Decoder 32).st = .lead ∧
    (⟨.mark, 3#6, 5#32⟩ : Decoder 32).st = .mark ∧ (⟨.space, 3#6, 5#32⟩ : Decoder 32).st = .space := by decide

/-- An accumulating instance with seven of eight bits received. -/
theorem seven_of_eight_legal : (⟨.mark, 7#6, 0x15#8⟩ : Decoder 8).Legal where
  countInFrame := by decide
  restZero := by
    intro i hi
    rcases Nat.lt_or_ge i 8 with h | h
    · have : i = 7 := by simp at hi; omega
      subst this
      decide
    · exact BitVec.getLsbD_of_ge _ _ h
  emptyOutside := by decide

/-- An instance with six of eight bits received. -/
theorem six_of_eight_legal : (⟨.mark, 6#6, 0x15#8⟩ : Decoder 8).Legal where
  countInFrame := by decide
  restZero := by
    intro i hi
    rcases Nat.lt_or_ge i 8 with h | h
    · have : i = 6 ∨ i = 7 := by simp at hi; omega
      rcases this with rfl | rfl <;> decide
    · exact BitVec.getLsbD_of_ge _ _ h
  emptyOutside := by decide

theorem witness_TakingABit :
    (⟨.mark, 7#6, 0x15#8⟩ : Decoder 8).Legal ∧ (⟨.mark, 6#6, 0x15#8⟩ : Decoder 8).Legal ∧
    bitval (Config.standard family).sony 449#16 = none ∧ bitval (Config.standard family).sony 450#16 = some false ∧
    bitval (Config.standard family).sony 900#16 = some true :=
  ⟨seven_of_eight_legal, six_of_eight_legal, by decide, by decide, by decide⟩

/-- A frame on the last bit, a repeat code, and a mismatch in each state of each kind: V-F7 (SONY12 in LEAD, 1000), V-F9 (NEC in MARK, 800), and durations one beyond a bound. -/
theorem witness_NoPartialFrameIsSurfaced :
    (⟨.mark, 7#6, 0x15#8⟩ : Decoder 8).Legal ∧
    (fsmStep .width (Config.standard family).sony none 1200#16 (⟨.mark, 7#6, 0x15#8⟩ : Decoder 8)).2 = .frame 0x95#8 ∧
    (fsmStep .dist (Config.standard family).nec (some ⟨1688#16, 2812#16⟩) 2250#16 (⟨.lead, 0#6, 0#32⟩ : Decoder 32)).2 =
      .repeatCode ∧
    (Config.standard family).nec.timeout ≤ 65535#16 ∧
    (Config.standard family).sony.leadMark.window.contains 1000#16 = false ∧
    (Config.standard family).sony.leadSpace.window.contains 1000#16 = false ∧
    (Config.standard family).nec.leadMark.window.contains 800#16 = false ∧
    (Config.standard family).nec.half.window.contains 800#16 = false ∧
    (Config.standard family).sony.leadMark.window.contains 751#16 = false ∧
    (Config.standard family).sony.half.window.contains 751#16 = false ∧
    (Config.standard family).nec.leadMark.window.contains 2113#16 = false ∧
    bitval (Config.standard family).nec 2113#16 = none ∧
    (Config.standard family).sony.leadMark.window.contains 1501#16 = false ∧
    bitval (Config.standard family).sony 1501#16 = none :=
  ⟨seven_of_eight_legal, by decide⟩

/-- V-F9 and V-F7: the mismatch in the awaited half sends the instance to IDLE with no bits. -/
theorem test_fsm_mismatch_of_its_state :
    fsmStep .dist (Config.standard family).nec none 800#16 (⟨.mark, 3#6, 0b101#32⟩ : Decoder 32) =
      (Decoder.idle, .nothing) ∧
    fsmStep .width (Config.standard family).sony none 1000#16 (⟨.lead, 0#6, 0#12⟩ : Decoder 12) =
      (Decoder.idle, .nothing) := by decide

/-- A failed command check, a disabled tag, and a frame that passes both. -/
theorem witness_NecAssembly :
    (0x00000000#32).toNat / 2 ^ 24 ≠ 255 - (0x00000000#32).toNat / 2 ^ 16 % 256 ∧
    (Config.standard 0x0014#16).tagEnabled .necExtended = false ∧
    (0xE51A00FF#32).toNat / 2 ^ 24 = 255 - (0xE51A00FF#32).toNat / 2 ^ 16 % 256 ∧
    (Config.standard family).tagEnabled .nec = true := by decide

theorem witness_NecRepeatFires :
    (Config.standard family).tagEnabled .necRepeat = true ∧
    1367419#32 - 1067420#32 < (Config.standard family).necRepeatWindow ∧
    (Config.standard family).necRepeatWindow ≤ 1367420#32 - 1067420#32 ∧
    (Config.standard 0x0004#16).tagEnabled .necRepeat = false := by decide

theorem witness_DroppedEdgeChangesNothing :
    pending.fault = none ∧ pending.proto.getLsbD 7 = true ∧ sending.fault = none ∧ sending.txBusy = true := by decide

theorem witness_AcceptedEdgeStepsEveryEnabledInstance :
    (lastBit.fault = none ∧ lastBit.proto.getLsbD 7 = false ∧ lastBit.txBusy = false) ∧
    (pending.fault = none ∧ pending.proto.getLsbD 7 = true) ∧ (sending.fault = none ∧ sending.txBusy = true) := by decide

theorem witness_EdgeFrame : exec (.edge 1067420#32) lastBit = .next (acceptEdge 1067420#32 lastBit) := rfl

/-- The debounce boundary on both sides, and an edge that completes nothing. -/
theorem witness_FirstResultIsPublishedOrSuppressed :
    (stepNec lastBit.config 1067420#32 (classify 1067420#32 lastBit.lastEdge) lastBit.nec lastBit.rep).2.2 =
      some ⟨.nec, 0x00FF#16, 0x1A#32⟩ ∧
    lastBit.config.debounce ≤ 1067420#32 - 767420#32 ∧ 1067420#32 - 767421#32 < lastBit.config.debounce ∧
    results 1066290#32 (classify 1066290#32 pending.lastEdge) pending = [] := by decide

theorem witness_ZeroDebouncePublishesEveryWinner :
    results 1067420#32 (classify 1067420#32 lastBit.lastEdge)
      (State.setLastEdge 1067420#32 { lastBit with config := { lastBit.config with debounce := 0#32 } }) =
      [⟨.nec, 0x00FF#16, 0x1A#32⟩] := by decide

theorem witness_EveryEdgeIsLostWhilePendingOrBusy : pending.fault = none ∧ pending.proto.getLsbD 7 = true := by decide

theorem witness_RepeatMemoryIsWrittenOnlyByEdgeAndReset :
    (∃ t, exec (.edge 1067420#32) lastBit = .next t ∧ t.rep ≠ lastBit.rep) ∧
    (∃ t, exec .reset pending = .next t ∧ t.rep ≠ pending.rep) :=
  ⟨⟨_, rfl, by decide⟩, ⟨_, rfl, by decide⟩⟩

theorem witness_LastEventMovesOnlyWithAPublication :
    (∃ t, exec (.edge 1067420#32) lastBit = .next t ∧ t.lastEvent ≠ lastBit.lastEvent) ∧
    (∃ t, exec .reset pending = .next t ∧ t.lastEvent ≠ pending.lastEvent) :=
  ⟨⟨_, rfl, by decide⟩, ⟨_, rfl, by decide⟩⟩

theorem witness_AvailableAnswersNew : pending.fault = none ∧ (clean family).fault = none := by decide

theorem witness_ReadAnswersTheTripleAndClearsNew : pending.fault = none := by decide

theorem witness_SecondReadAnswersTheSame : pending.fault = none := by decide

theorem witness_OnlyReadAndResetClearNew :
    (∃ t, exec .read pending = .next t ∧ pending.proto.getLsbD 7 = true ∧ t.proto.getLsbD 7 = false) ∧
    (∃ t, exec .reset pending = .next t ∧ t.proto.getLsbD 7 = false) :=
  ⟨⟨_, rfl, by decide, by decide⟩, ⟨_, rfl, by decide⟩⟩

theorem witness_RepositoryNeverTears :
    (∃ t, exec (.edge 1067420#32) lastBit = .next t ∧ t.addr ≠ lastBit.addr) ∧ (∃ t, exec .read pending = .next t) ∧
    (∃ t, exec .reset pending = .next t) :=
  ⟨⟨_, rfl, by decide⟩, ⟨_, rfl⟩, ⟨_, rfl⟩⟩

theorem witness_SendEmitsTheEnvelope :
    pending.fault = none ∧ pending.txBusy = false ∧ Tag.sony20 ≠ .noProtocol ∧ Tag.sony20 ≠ .user := by decide

theorem witness_UnsupportedSendSetsFault :
    pending.fault = none ∧ pending.txBusy = false ∧ 0x0A#7 ≤ 0x0A#7 ∧ 0x0A#7 ≤ 0x7F#7 := by decide

theorem witness_SendAndTxDoneWaitWhenNotEnabled :
    sending.fault = none ∧ sending.txBusy = true ∧ pending.fault = none ∧ pending.txBusy = false := by decide

theorem witness_TxDoneEndsTheTransmission : sending.fault = none ∧ sending.txBusy = true := by decide

theorem witness_EnvelopeAlternatesFromMarkToMark :
    ∃ tx, envelope (Config.standard family) 0x06#7 0#16 0x95#32 = some tx :=
  ⟨_, rfl⟩

theorem witness_EnvelopeIgnoresBitsBeyondTheProtocol :
    0x11A#32 &&& 0xFF#32 = 0x1A#32 &&& 0xFF#32 ∧ 0x95#32 &&& 0x7F#32 = 0x15#32 &&& 0x7F#32 ∧
    0x8000#32 &&& 0x7FFF#32 = 0#32 &&& 0x7FFF#32 ∧ 0x21#16 &&& 0x1F#16 = 1#16 &&& 0x1F#16 ∧
    0x101#16 &&& 0xFF#16 = 1#16 &&& 0xFF#16 := by decide

/-- All eight tags enabled, as at State.reset. -/
def allTags : BitVec 16 := 0x03FC#16

/-- Another Panasonic and Sony table, unused: no tag of theirs is enabled. -/
def oddTables : Config :=
  { Config.standard family with
    pan := Timing.around 9000#16 4500#16 560#16 560#16 1690#16
    sony := Timing.around 9000#16 4500#16 560#16 560#16 1690#16 }

/-- NEC with every tag enabled. -/
theorem witness_NecRoundTrip :
    ∃ tx, (clean allTags).fault = none ∧ (clean allTags).proto.getLsbD 7 = false ∧ (clean allTags).txBusy = false ∧
      (clean allTags).config.nec = (Config.standard 0#16).nec ∧ (clean allTags).config.trailNec = 560#16 ∧
      (clean allTags).config.defaultOrOff .pan = true ∧ (clean allTags).config.defaultOrOff .sony = true ∧
      Tag.nec = (if (0x00FF#16).toNat / 256 = 255 - (0x00FF#16).toNat % 256 then Tag.nec else .necExtended) ∧
      (clean allTags).config.tagEnabled .nec = true ∧ (0x1A#32).toNat < 2 ^ 8 ∧
      65535#32 ≤ 1000000#32 - (clean allTags).lastEdge ∧
      envelope (clean allTags).config Tag.nec.code 0x00FF#16 0x1A#32 = some tx ∧
      (clean allTags).config.debounce ≤ 1000000#32 + BitVec.ofNat 32 (tx.duration - 560) - (clean allTags).lastEvent :=
  ⟨_, rfl, by decide, rfl, rfl, rfl, by decide, by decide, by decide, by decide, by decide, by decide, rfl, by decide⟩

/-- The other way to meet the premises on the other protocols: their tables differ, and their tags are not enabled. -/
theorem witness_NecRoundTrip_others_off :
    oddTables.defaultOrOff .pan = true ∧ oddTables.defaultOrOff .sony = true ∧
    oddTables.pan ≠ (Config.standard 0#16).pan ∧ oddTables.sony ≠ (Config.standard 0#16).sony := by decide

theorem witness_PanasonicRoundTrip :
    ∃ tx, (clean allTags).fault = none ∧ (clean allTags).proto.getLsbD 7 = false ∧ (clean allTags).txBusy = false ∧
      (clean allTags).config.pan = (Config.standard 0#16).pan ∧ (clean allTags).config.trailPan = 432#16 ∧
      (clean allTags).config.tagEnabled .panasonic = true ∧
      (clean allTags).config.defaultOrOff .nec = true ∧ (clean allTags).config.defaultOrOff .sony = true ∧
      65535#32 ≤ 2000000#32 - (clean allTags).lastEdge ∧
      envelope (clean allTags).config Tag.panasonic.code 0x2002#16 0x0D00BCB1#32 = some tx ∧
      (clean allTags).config.debounce ≤ 2000000#32 + BitVec.ofNat 32 (tx.duration - 432) - (clean allTags).lastEvent :=
  ⟨_, rfl, by decide, rfl, rfl, rfl, by decide, by decide, by decide, by decide, rfl, by decide⟩

/-- One witness per Sony protocol, each at the largest address and command it can carry, with every tag enabled but the smaller Sony ones. -/
theorem witness_SonyRoundTrip :
    ∀ x ∈ [(Tag.sony8, 0x3FC#16, 0#16, 0xFF#32), (.sony12, 0x3BC#16, 0x1F#16, 0x7F#32), (.sony15, 0x33C#16, 0xFF#16, 0x7F#32),
        (.sony20, 0x23C#16, 0x1F#16, 0x7FFF#32)],
      (clean x.2.1).fault = none ∧ (clean x.2.1).proto.getLsbD 7 = false ∧ (clean x.2.1).txBusy = false ∧
      (clean x.2.1).config.sony = (Config.standard 0#16).sony ∧ (clean x.2.1).config.trailSony = 600#16 ∧
      (clean x.2.1).config.defaultOrOff .nec = true ∧ (clean x.2.1).config.defaultOrOff .pan = true ∧
      (clean x.2.1).config.tagEnabled x.1 = true ∧
      (∀ u ∈ [Tag.sony8, .sony12, .sony15], u.code < x.1.code → (clean x.2.1).config.tagEnabled u = false) ∧
      (x.1 = .sony8 ∧ x.2.2.1 = 0#16 ∧ x.2.2.2.toNat < 2 ^ 8 ∨ x.1 = .sony12 ∧ x.2.2.1.toNat < 2 ^ 5 ∧ x.2.2.2.toNat < 2 ^ 7 ∨
       x.1 = .sony15 ∧ x.2.2.1.toNat < 2 ^ 8 ∧ x.2.2.2.toNat < 2 ^ 7 ∨
       x.1 = .sony20 ∧ x.2.2.1.toNat < 2 ^ 5 ∧ x.2.2.2.toNat < 2 ^ 15) ∧
      65535#32 ≤ 3000000#32 - (clean x.2.1).lastEdge ∧
      ((envelope (clean x.2.1).config x.1.code x.2.2.1 x.2.2.2).any fun tx =>
        decide ((clean x.2.1).config.debounce ≤
          3000000#32 + BitVec.ofNat 32 (tx.duration - 1200) - (clean x.2.1).lastEvent)) = true := by
  decide

/-- The start of V-R1 with every tag enabled and DEBOUNCE at its boundary: the last event is 300000 before the completion. -/
def repeatStart : State :=
  { clean allTags with
    lastEdge := 1000000#32, lastEvent := 819250#32, proto := 0x02#8, addr := 0x00FF#16, cmd := 0x1A#32
    rep := ⟨true, 0x00FF#16, 0x1A#8, 819251#32⟩ }

theorem witness_NecRepeatRoundTrip :
    ∃ tx, repeatStart.fault = none ∧ repeatStart.proto.getLsbD 7 = false ∧ repeatStart.txBusy = false ∧
      repeatStart.config.nec = (Config.standard 0#16).nec ∧
      repeatStart.config.necRepeatSpace = (Config.standard 0#16).necRepeatSpace ∧ repeatStart.config.trailNec = 560#16 ∧
      repeatStart.config.defaultOrOff .pan = true ∧ repeatStart.config.defaultOrOff .sony = true ∧
      repeatStart.config.tagEnabled .necRepeat = true ∧ repeatStart.rep.valid = true ∧
      1108000#32 + 11250#32 - repeatStart.rep.time < repeatStart.config.necRepeatWindow ∧
      65535#32 ≤ 1108000#32 - repeatStart.lastEdge ∧
      envelope repeatStart.config Tag.necRepeat.code 0#16 0#32 = some tx ∧
      repeatStart.config.debounce ≤ 1108000#32 + 11250#32 - repeatStart.lastEvent :=
  ⟨_, rfl, by decide, rfl, rfl, rfl, rfl, by decide, by decide, by decide, rfl, by decide, by decide, rfl, by decide⟩

/-- A report of each kind, which R34's DONE clause speaks of. -/
theorem witness_FsmStateEncoding :
    (fsmStep .width (Config.standard family).sony none 1200#16 (⟨.mark, 7#6, 0x15#8⟩ : Decoder 8)).2 ≠ .nothing := by decide

/-- The bounds at both sides of 65536: 52428 + 13107 = 65535, and 52429 + 13107 = 65536. -/
theorem witness_DefaultWindowsAndBitBounds :
    (52428#16).toNat + (52428#16).toNat / 4 ≤ 65535 ∧ 65535 < (52429#16).toNat + (52429#16).toNat / 4 ∧
    (Window.around 52428#16).hi = 65535#16 ∧ (Window.around 52429#16).ordered = false := by decide

/-- R113 on ZERO = 30000, ONE = 40000: floor(70000 / 2) = 35000. -/
theorem test_midpoint_does_not_wrap :
    (Timing.around 9000#16 4500#16 560#16 30000#16 40000#16).bitMid = 35000#16 := by decide

/-- A space segment and a mark segment of the envelope on IR_OUT, each at its last nanosecond. -/
theorem witness_WaveformOfAnEnvelope :
    ∃ t, sending.irOut = some t ∧ t.segments[1]? = some ⟨.space, 2250#16⟩ ∧ 2249999 < 1000 * (2250#16).toNat ∧
      t.segments[2]? = some ⟨.mark, 560#16⟩ ∧ 559999 < 1000 * (560#16).toNat ∧ 1000 * t.duration ≤ 11810000 :=
  ⟨_, rfl, rfl, by decide, rfl, by decide, by decide⟩

theorem witness_ResetRestoresEveryRegister : pending.fault = none ∧ sending.fault = none := by decide

theorem witness_PowerOnAndResetHoldTheResetTable :
    (∃ c, clean family = State.powerOn c) ∧ ∃ s, exec .reset sending = .next s :=
  ⟨⟨_, rfl⟩, ⟨_, rfl⟩⟩

theorem witness_NoStepChangesTheConfiguration : ∃ t, step (holding .host 0xF#64 pending) = .next t :=
  ⟨_, rfl⟩

theorem witness_ConsumerAndTransmitterNeverTouchCapture :
    (owner .read = .consumer ∧ ∃ t, exec .read pending = .next t) ∧
    (owner .txdone = .transmitter ∧ ∃ t, exec .txdone sending = .next t) :=
  ⟨⟨rfl, _, rfl⟩, ⟨rfl, _, rfl⟩⟩

theorem witness_TransmitterAndFaultHaveTheirOwnWriters :
    (∃ t, exec (.send 0x04#7 0#16 0#32) pending = .next t ∧ t.txBusy ≠ pending.txBusy) ∧
    (∃ t, exec (.send 0x01#7 0#16 0#32) pending = .next t ∧ t.fault ≠ pending.fault) :=
  ⟨⟨_, rfl, by decide⟩, ⟨_, rfl, by decide⟩⟩

theorem witness_EveryStepKeepsTheInvariant :
    Inv (holding .capture 0xF42401#64 (clean family)) ∧
    ∃ t, step (holding .capture 0xF42401#64 (clean family)) = .next t ∧ t.lastEdge = 1000000#32 := by
  refine ⟨?_, _, rfl, rfl⟩
  constructor <;> first | exact idle_legal (by decide) | exact fun _ => rfl | exact .inr ⟨rfl, rfl, rfl⟩ | rfl

end Sys2Proof.Tests
end

/-! PROOFS. The scope rules (00_scope.md): the turn of an agent that may move (R17), the fixed configuration (R8), its well-formedness (R9), and the effect of a timeout (R116). -/

namespace Sys2Proof

/-! ### Well-formedness, check by check (R9) -/

/-- A timing table is refused exactly by one of the checks R9(2) to R9(5). -/
theorem Timing.wellFormed_eq_false_iff {t : Timing} {extra : List Window} :
    t.wellFormed extra = false ↔ t.windowsOrdered extra = false ∨ t.windowsDisjoint extra = false ∨
      t.bitBoundsOrdered = false ∨ t.timeoutAbove extra = false := by
  simp only [Timing.wellFormed, Bool.and_eq_false_iff, or_assoc]

/-- A configuration is refused exactly by ENABLED, by one of its three tables or by its carrier. -/
theorem Config.wellFormed_eq_false_iff {c : Config} :
    c.wellFormed = false ↔ c.enabledNonempty = false ∨ c.nec.wellFormed [c.necRepeatSpace.window] = false ∨
      c.pan.wellFormed [] = false ∨ c.sony.wellFormed [] = false ∨ c.carrierOk = false := by
  simp only [Config.wellFormed, Bool.and_eq_false_iff, or_assoc]

theorem Config.wellFormed_eq_false_of_nec {c : Config}
    (h : c.nec.wellFormed [c.necRepeatSpace.window] = false) : c.wellFormed = false :=
  wellFormed_eq_false_iff.2 (.inr (.inl h))

theorem Config.wellFormed_eq_false_of_pan {c : Config} (h : c.pan.wellFormed [] = false) : c.wellFormed = false :=
  wellFormed_eq_false_iff.2 (.inr (.inr (.inl h)))

theorem Config.wellFormed_eq_false_of_sony {c : Config} (h : c.sony.wellFormed [] = false) : c.wellFormed = false :=
  wellFormed_eq_false_iff.2 (.inr (.inr (.inr (.inl h))))

theorem Config.wellFormed_eq_false_of_carrier {c : Config} (h : c.carrierOk = false) : c.wellFormed = false :=
  wellFormed_eq_false_iff.2 (.inr (.inr (.inr (.inr h))))

/-- The default tables and carriers pass every check but the one of ENABLED, which has no default (R8). -/
theorem Config.standard_wellFormed (e : BitVec 16) :
    (Config.standard e).wellFormed = (Config.standard e).enabledNonempty := by
  have hnec : (Config.standard e).nec.wellFormed [(Config.standard e).necRepeatSpace.window] = true := rfl
  have hpan : (Config.standard e).pan.wellFormed [] = true := rfl
  have hsony : (Config.standard e).sony.wellFormed [] = true := rfl
  have hcarrier : (Config.standard e).carrierOk = true := rfl
  simp only [Config.wellFormed, hnec, hpan, hsony, hcarrier, Bool.and_true]

/-- R9(1) reads the eight decodable tags of ENABLE alone (R41). -/
theorem Config.enabledNonempty_iff {c : Config} : c.enabledNonempty = true ↔ c.enable &&& 0x03FC#16 ≠ 0#16 :=
  bne_iff_ne

/-! ### Durations above every window (R116) -/

/-- R9(4) and R9(5) of a well-formed table: the bit bounds are ordered, and every window ends below the timeout. -/
theorem Timing.bounds_of_wellFormed {t : Timing} {extra : List Window} (h : t.wellFormed extra = true) :
    t.bitMid ≤ t.bitHi ∧ ∀ w ∈ t.leadMark.window :: t.otherWindows extra, w.hi < t.timeout := by
  simp only [Timing.wellFormed, Bool.and_eq_true] at h
  obtain ⟨⟨-, hbits⟩, htimeout⟩ := h
  simp only [Timing.bitBoundsOrdered, Bool.and_eq_true, decide_eq_true_eq] at hbits
  simp only [Timing.timeoutAbove, List.all_eq_true, decide_eq_true_eq] at htimeout
  exact ⟨hbits.2, htimeout⟩

theorem Window.contains_eq_false_of_hi_lt {w : Window} {d : Duration} (h : w.hi < d) : w.contains d = false := by
  simp only [Window.contains, Bool.and_eq_false_iff, decide_eq_false_iff_not, BitVec.not_le]
  exact .inr h

end Sys2Proof

namespace Sys2Proof.Machine

theorem bitval_eq_none_of_bitHi_lt {t : Timing} {d : Duration} (hmid : t.bitMid ≤ t.bitHi) (h : t.bitHi < d) :
    bitval t d = none := by
  have hnotZero : ¬(t.bitLo ≤ d ∧ d < t.bitMid) := fun hd => by bv_omega
  have hnotOne : ¬(t.bitMid ≤ d ∧ d ≤ t.bitHi) := fun hd => by bv_omega
  rw [bitval, if_neg hnotZero, if_neg hnotOne]

/-! ### The turn of an agent (R17, R67) -/

/-- With a well-formed configuration and FAULT clear, the step issues the first word of the agent at turn. -/
theorem step_eq_issue {s : State} {a : Agent} {rest : List Agent} {w : CommandWord} {ws : List CommandWord}
    (hwf : s.config.wellFormed = true) (hf : s.fault = none) (hturns : s.turns = a :: rest)
    (hq : s.inbox.of a = w :: ws) : step s = issue a w s := by
  simp only [step, advance, hwf, if_true, whileUnfaulted_of_clear hf, runTurn, hturns, hq]

theorem step_of_not_wellFormed {s : State} (h : s.config.wellFormed = false) : step s = .refused .badConfiguration := by
  simp only [step, advance, h, Bool.false_eq_true, if_false]

/-- A valid word of an enabled operation that the agent owns runs, its turn and itself taken. -/
theorem issue_of_enabled {s : State} {a : Agent} {w : CommandWord} {i : Instr} (hdec : decode w = .ok i)
    (hown : owner i = a) (hen : enabled i s = true) : issue a w s = exec i (s.takeWord a) := by
  simp only [issue, hdec, hown, ne_eq, not_true_eq_false, if_false, hen, if_true]

theorem takeWord_eq {s : State} {a : Agent} {rest : List Agent} {w : CommandWord} {ws : List CommandWord}
    (hturns : s.turns = a :: rest) (hq : s.inbox.of a = w :: ws) :
    s.takeWord a = { s with turns := rest, inbox := s.inbox.put a ws } := by
  simp only [State.takeWord, State.passTurn, hturns, hq, List.tail_cons]

/-! ### The statements -/

/-- Settles O6: the step issues the word, and the issue of an enabled operation is its exec. -/
theorem stepRunsTheDecodedOperation : Obligations.StepRunsTheDecodedOperation := by
  intro s a rest w ws i hwf hf hturns hq hdec hown hen
  calc step s = issue a w s := step_eq_issue hwf hf hturns hq
    _ = exec i (s.takeWord a) := issue_of_enabled hdec hown hen
    _ = exec i { s with turns := rest, inbox := s.inbox.put a ws } := by rw [takeWord_eq hturns hq]

/-- Settles O51: a step waits, passes a turn, or runs an operation, and no operation writes the configuration. -/
theorem noStepChangesTheConfiguration : Obligations.NoStepChangesTheConfiguration := by
  intro s t h
  obtain ⟨-, -, ⟨-, rfl⟩ | ⟨-, rfl⟩ | ⟨_, _, _, _, _, -, -, -, -, -, hexec⟩⟩ := step_next_cases h
  · rfl
  · rfl
  · obtain ⟨-, -, hconfig⟩ := exec_next_interface hexec
    exact hconfig

/-- Settles O14: the duration is above the upper bound of every window, so that it fits none and is above BIT_HI. -/
theorem timeoutFitsNoWindow : Obligations.TimeoutFitsNoWindow := by
  intro t extra d hwf hd
  obtain ⟨hmid, htimeout⟩ := Timing.bounds_of_wellFormed hwf
  have habove : ∀ w ∈ t.leadMark.window :: t.otherWindows extra, w.hi < d :=
    fun w hw => Nat.lt_of_lt_of_le (htimeout w hw) hd
  simp only [Timing.otherWindows, List.cons_append, List.nil_append, List.forall_mem_cons] at habove
  obtain ⟨hleadMark, hleadSpace, hhalf, hbits, hextra⟩ := habove
  exact ⟨Window.contains_eq_false_of_hi_lt hleadMark, Window.contains_eq_false_of_hi_lt hleadSpace,
    Window.contains_eq_false_of_hi_lt hhalf, bitval_eq_none_of_bitHi_lt hmid hbits,
    fun w hw => Window.contains_eq_false_of_hi_lt (hextra w hw)⟩

/-- Settles O10: the step's guard is the well-formedness; of the default configuration it asks only a decodable tag; each of the seven configurations fails the check named for it. -/
theorem illFormedConfigurationIsRefused : Obligations.IllFormedConfigurationIsRefused := by
  refine ⟨fun s => step_of_not_wellFormed, fun e => ?_, fun e => ?_⟩
  · rw [Config.standard_wellFormed]
    exact Config.enabledNonempty_iff
  · have hunordered : (Config.standard e).nec.windowsOrdered [⟨2812#16, 1688#16⟩] = false := rfl
    have hrepeat : (Config.standard e).nec.windowsDisjoint [⟨1688#16, 3375#16⟩] = false := rfl
    have hbitHi : Timing.windowsDisjoint { (Config.standard e).sony with bitHi := 1800#16 } [] = false := rfl
    have hbitMid : Timing.bitBoundsOrdered { (Config.standard e).pan with bitMid := 323#16 } = false := rfl
    have htimeout : Timing.timeoutAbove { (Config.standard e).nec with timeout := 11250#16 }
        [(Config.standard e).necRepeatSpace.window] = false := rfl
    have hduty : Config.carrierOk { Config.standard e with dutyNum := 2 } = false := rfl
    have hcarrier : Config.carrierOk { Config.standard e with carrierSony := 0 } = false := rfl
    simp only [List.forall_mem_cons]
    exact ⟨Config.wellFormed_eq_false_of_nec (Timing.wellFormed_eq_false_iff.2 (.inl hunordered)),
      Config.wellFormed_eq_false_of_nec (Timing.wellFormed_eq_false_iff.2 (.inr (.inl hrepeat))),
      Config.wellFormed_eq_false_of_sony (Timing.wellFormed_eq_false_iff.2 (.inr (.inl hbitHi))),
      Config.wellFormed_eq_false_of_pan (Timing.wellFormed_eq_false_iff.2 (.inr (.inr (.inl hbitMid)))),
      Config.wellFormed_eq_false_of_nec (Timing.wellFormed_eq_false_iff.2 (.inr (.inr (.inr htimeout)))),
      Config.wellFormed_eq_false_of_carrier hduty, Config.wellFormed_eq_false_of_carrier hcarrier,
      List.forall_mem_nil _⟩

end Sys2Proof.Machine

/-! PROOFS. The state (10_state.md): what an EDGE may write (R22, R46), the writers of the capture registers (R24, R38), of the transmitter and of FAULT (R39, R40), the reset table (R48), the FSM encoding (R34), and the invariant of the block (R30 to R39). -/

namespace Sys2Proof.Machine

/-! ### What an EDGE writes (R22, R160 to R168) -/

/-- Settles O24: a dropped EDGE changes nothing, and neither the fan-out nor a publication writes these fields. -/
theorem edgeFrame : Obligations.EdgeFrame := by
  intro s t ts h
  obtain ⟨-, ⟨-, rfl⟩ | ⟨-, rfl⟩⟩ := execEdge_next.1 h
  · exact ⟨rfl, rfl, rfl, rfl, rfl, rfl, rfl, rfl⟩
  · obtain e | ⟨r, rest, -, -, e⟩ := acceptEdge_cases ts s <;> rw [e] <;>
      exact ⟨rfl, rfl, rfl, rfl, rfl, rfl, rfl, rfl⟩

/-- An accepted EDGE writes the repeat memory by the NEC step alone. -/
theorem acceptEdge_rep (now : Time) (s : State) :
    (acceptEdge now s).rep = (stepNec s.config now (classify now s.lastEdge) s.nec s.rep).2.1 := by
  obtain e | ⟨r, rest, -, -, e⟩ := acceptEdge_cases now s <;> rw [e] <;> rfl

/-- The NEC step leaves the repeat memory alone, or makes it valid with the edge's timestamp (R38, R130, R131). -/
theorem stepNec_repeatMemory (c : Config) (now : Time) (d : Duration) (x : Decoder 32) (rep : RepeatMemory) :
    (stepNec c now d x rep).2.1 = rep ∨
      ((stepNec c now d x rep).2.1.valid = true ∧ (stepNec c now d x rep).2.1.time = now) := by
  obtain ⟨-, h⟩ | ⟨-, h⟩ := stepNec_cases c now d x rep
  · exact .inl (by rw [h])
  · rw [h]
    obtain e | ⟨m, o, e, hvalid, htime, -⟩ := necResult_cases c now rep
      (fsmStep .dist c.nec (some c.necRepeatSpace.window) d x).2
    · exact .inl (by rw [e])
    · exact .inr (by rw [e]; exact ⟨hvalid, htime⟩)

/-! ### The operations of the consumer and the transmitter (R22, R64) -/

/-- Every operation is an EDGE, a RESET, or one of the consumer or the transmitter (R81). -/
theorem edge_or_reset_or_owner (i : Instr) :
    (∃ ts, i = .edge ts) ∨ i = .reset ∨ owner i = .consumer ∨ owner i = .transmitter := by
  cases i <;> simp [owner]

/-- Settles O52: READ writes NEW beside the response, and AVAILABLE, SEND and TX_DONE none of these registers. -/
theorem consumerAndTransmitterNeverTouchCapture : Obligations.ConsumerAndTransmitterNeverTouchCapture := by
  intro i s t howner h
  cases i with
  | edge ts => simp [owner] at howner
  | avail =>
    obtain ⟨-, rfl⟩ := execAvail_next.1 h
    exact ⟨rfl, rfl, rfl, rfl, rfl, rfl, rfl, rfl, rfl, rfl, rfl, rfl⟩
  | read =>
    obtain ⟨-, rfl⟩ := execRead_next.1 h
    exact ⟨rfl, rfl, rfl, rfl, rfl, rfl, rfl, rfl, rfl, rfl, rfl, tag_clearNew s⟩
  | send sel a c =>
    obtain ⟨-, ⟨-, rfl⟩ | ⟨-, -, rfl⟩ | ⟨-, tx, -, rfl⟩⟩ := execSend_next.1 h <;>
      exact ⟨rfl, rfl, rfl, rfl, rfl, rfl, rfl, rfl, rfl, rfl, rfl, rfl⟩
  | txdone =>
    obtain ⟨-, ⟨-, rfl⟩ | ⟨-, rfl⟩⟩ := execTxdone_next.1 h <;>
      exact ⟨rfl, rfl, rfl, rfl, rfl, rfl, rfl, rfl, rfl, rfl, rfl, rfl⟩
  | reset => simp [owner] at howner

/-! ### The writers of each register (R24, R38, R46) -/

/-- Settles O29: an EDGE writes the repeat memory by the NEC step alone, and the consumer and the transmitter never do. -/
theorem repeatMemoryIsWrittenOnlyByEdgeAndReset : Obligations.RepeatMemoryIsWrittenOnlyByEdgeAndReset := by
  intro i s t h hne
  obtain ⟨ts, rfl⟩ | rfl | howner := edge_or_reset_or_owner i
  · obtain ⟨-, ⟨-, rfl⟩ | ⟨-, rfl⟩⟩ := execEdge_next.1 h
    · exact absurd rfl hne
    · rw [acceptEdge_rep] at hne ⊢
      obtain hsame | ⟨hvalid, htime⟩ := stepNec_repeatMemory s.config ts (classify ts s.lastEdge) s.nec s.rep
      · exact absurd hsame hne
      · exact .inl ⟨congrArg Instr.edge htime.symm, hvalid⟩
  · obtain ⟨-, rfl⟩ := execReset_next.1 h
    exact .inr ⟨rfl, rfl⟩
  · obtain ⟨-, -, -, -, -, -, -, -, hrep, -⟩ := consumerAndTransmitterNeverTouchCapture i s t howner h
    exact absurd hrep hne

/-- Settles O30: of an EDGE, the publication alone writes LAST_EVENT, and it copies LAST_EDGE, which is the edge's timestamp. -/
theorem lastEventMovesOnlyWithAPublication : Obligations.LastEventMovesOnlyWithAPublication := by
  intro i s t h hne
  obtain ⟨ts, rfl⟩ | rfl | howner := edge_or_reset_or_owner i
  · obtain ⟨-, ⟨-, rfl⟩ | ⟨hgate, rfl⟩⟩ := execEdge_next.1 h
    · exact absurd rfl hne
    · obtain ⟨hnew, -⟩ := Bool.or_eq_false_iff.1 hgate
      obtain e | ⟨r, rest, -, -, e⟩ := acceptEdge_cases ts s
      · exact absurd (congrArg State.lastEvent e) hne
      · rw [e]
        exact .inl ⟨rfl, hnew, isNew_publishedProto r.tag, rfl⟩
  · obtain ⟨-, rfl⟩ := execReset_next.1 h
    exact .inr ⟨rfl, rfl⟩
  · obtain ⟨-, hlastEvent, -⟩ := consumerAndTransmitterNeverTouchCapture i s t howner h
    exact absurd hlastEvent hne

@[simp] theorem State.abortTx_fault (s : State) : s.abortTx.fault = s.fault := by
  unfold State.abortTx
  split <;> rfl

/-- Settles O53: EDGE, AVAILABLE and READ write none of the three; SEND, while it is not busy, starts a transmission or sets FAULT; TX_DONE and RESET leave FAULT alone. -/
theorem transmitterAndFaultHaveTheirOwnWriters : Obligations.TransmitterAndFaultHaveTheirOwnWriters := by
  intro i s t h
  cases i with
  | edge ts =>
    obtain ⟨-, hbusy, hout, hfault, -⟩ := edgeFrame s t ts h
    simp [hbusy, hout, hfault]
  | avail =>
    obtain ⟨-, rfl⟩ := execAvail_next.1 h
    simp
  | read =>
    obtain ⟨-, rfl⟩ := execRead_next.1 h
    simp
  | send sel a c =>
    obtain ⟨-, ⟨-, rfl⟩ | ⟨-, henv, rfl⟩ | ⟨hidle, tx, -, rfl⟩⟩ := execSend_next.1 h
    · simp
    · exact ⟨by simp, fun _ => ⟨sel, a, c, rfl, rfl, henv⟩⟩
    · exact ⟨fun _ => .inr (.inr ⟨sel, a, c, rfl, hidle, rfl⟩), fun hne => absurd rfl hne⟩
  | txdone =>
    refine ⟨fun _ => .inl rfl, fun hne => ?_⟩
    obtain ⟨-, ⟨-, rfl⟩ | ⟨-, rfl⟩⟩ := execTxdone_next.1 h <;> exact absurd rfl hne
  | reset =>
    obtain ⟨-, rfl⟩ := execReset_next.1 h
    exact ⟨fun _ => .inr (.inl rfl), fun hne => absurd s.abortTx_fault hne⟩

/-! ### The reset table (R48) -/

/-- Settles O50: both ways to it write the same table, and a RESET completes only while FAULT is clear. -/
theorem powerOnAndResetHoldTheResetTable : Obligations.PowerOnAndResetHoldTheResetTable := by
  rintro s (⟨c, rfl⟩ | ⟨u, h⟩)
  · exact ⟨rfl, rfl, rfl, rfl, rfl, rfl, rfl, rfl, rfl, rfl, rfl, rfl, rfl, rfl, rfl⟩
  · obtain ⟨hfault, rfl⟩ := execReset_next.1 h
    exact ⟨rfl, rfl, rfl, rfl, rfl, rfl, rfl, rfl, rfl, rfl, rfl, rfl, rfl, rfl, u.abortTx_fault.trans hfault⟩

/-! ### The encoding of the FSM states (R34) -/

/-- DONE is transient: a decoder that reports a frame or a repeat code is back in its reset state (R119, R124).
The steps that end in the reset state close by the rewrite; every other step reports nothing. -/
theorem fsmStep_idle_of_report {n : Nat} {kind : Kind} {t : Timing} {rs : Option Window} {d : Duration} {x : Decoder n}
    (h : (fsmStep kind t rs d x).2 ≠ .nothing) : (fsmStep kind t rs d x).1 = Decoder.idle := by
  obtain e | e | ⟨-, e⟩ | ⟨-, e⟩ | ⟨onward, -, -, e | e⟩ := fsmStep_cases kind t rs d x <;> rw [e] at h ⊢
  · exact absurd rfl h
  · exact absurd rfl h
  · obtain e | ⟨w, -, -, e⟩ | e := leadStep_cases t rs d x <;> rw [e] at h ⊢
    exact absurd rfl h
  · obtain ⟨-, e⟩ | ⟨-, e⟩ := halfStep_cases t d onward x <;> rw [e] at h ⊢
    exact absurd rfl h
  · obtain ⟨-, e⟩ | ⟨b, -, ⟨-, e⟩ | ⟨-, e⟩⟩ := takeBit_cases t d onward x <;> rw [e] at h ⊢
    exact absurd rfl h

/-- Settles O56: the code is a bijection, a reporting step ends idle, and power-on makes every decoder idle. -/
theorem fsmStateEncoding : Obligations.FsmStateEncoding := by
  refine ⟨⟨rfl, rfl, rfl, rfl⟩, FsmState.ofCode_code, FsmState.code_ofCode, fun n kind t rs d x h => ?_,
    fun c => ⟨rfl, rfl, rfl, rfl, rfl, rfl⟩⟩
  rw [fsmStep_idle_of_report h, stBits_idle]

/-! ### The invariant (R30 to R39) -/

theorem stepNec_legal {c : Config} {now : Time} {d : Duration} {x : Decoder 32} {rep : RepeatMemory} (hx : x.Legal) :
    (stepNec c now d x rep).1.Legal := by
  obtain ⟨-, h⟩ | ⟨-, h⟩ := stepNec_cases c now d x rep <;> rw [h]
  · exact hx
  · exact fsmStep_legal (by decide) hx

theorem stepPlain_legal {n : Nat} {c : Config} {p : Proto} {tag : Tag} {assemble : BitVec n → Decoded} {d : Duration}
    {x : Decoder n} (hn : n ≤ 48) (hx : x.Legal) : (stepPlain c p tag assemble d x).1.Legal := by
  obtain ⟨-, h⟩ | ⟨-, h⟩ := stepPlain_cases c p tag assemble d x <;> rw [h]
  · exact hx
  · exact fsmStep_legal hn hx

/-- The NEC decoder, while disabled, is never stepped, and so stays in its reset state (R33, R163). -/
theorem stepNec_idle_of_disabled {c : Config} {now : Time} {d : Duration} {x : Decoder 32} {rep : RepeatMemory}
    (hx : c.necEnabled = false → x = Decoder.idle) (hoff : c.necEnabled = false) :
    (stepNec c now d x rep).1 = Decoder.idle := by
  simp [stepNec, hoff, hx hoff]

/-- The same of every other decoder. -/
theorem stepPlain_idle_of_disabled {n : Nat} {c : Config} {p : Proto} {tag : Tag} {assemble : BitVec n → Decoded}
    {d : Duration} {x : Decoder n} (hx : c.tagEnabled tag = false → x = Decoder.idle)
    (hoff : c.tagEnabled tag = false) : (stepPlain c p tag assemble d x).1 = Decoder.idle := by
  simp [stepPlain, hoff, hx hoff]

/-- The NEC step keeps the repeat memory at its reset values until it makes it valid (R38). -/
theorem stepNec_repeatMemory_clear {c : Config} {now : Time} {d : Duration} {x : Decoder 32} {rep : RepeatMemory}
    (hrep : rep.valid = false → rep = RepeatMemory.cleared) (hclear : (stepNec c now d x rep).2.1.valid = false) :
    (stepNec c now d x rep).2.1 = RepeatMemory.cleared := by
  obtain hsame | ⟨hvalid, -⟩ := stepNec_repeatMemory c now d x rep
  · rw [hsame] at hclear ⊢
    exact hrep hclear
  · exact absurd hvalid (by simp [hclear])

namespace Inv

variable {s : State}

/-- The fan-out keeps the invariant: it steps the enabled decoders, and the repeat memory with the NEC one (R163). -/
theorem fannedOut (h : Inv s) (now : Time) : Inv (fannedOut now s) :=
  { h with
    necLegal := stepNec_legal h.necLegal
    panLegal := stepPlain_legal (by decide) h.panLegal
    sony8Legal := stepPlain_legal (by decide) h.sony8Legal
    sony12Legal := stepPlain_legal (by decide) h.sony12Legal
    sony15Legal := stepPlain_legal (by decide) h.sony15Legal
    sony20Legal := stepPlain_legal (by decide) h.sony20Legal
    necDisabled := stepNec_idle_of_disabled h.necDisabled
    panDisabled := stepPlain_idle_of_disabled h.panDisabled
    sony8Disabled := stepPlain_idle_of_disabled h.sony8Disabled
    sony12Disabled := stepPlain_idle_of_disabled h.sony12Disabled
    sony15Disabled := stepPlain_idle_of_disabled h.sony15Disabled
    sony20Disabled := stepPlain_idle_of_disabled h.sony20Disabled
    repeatClear := stepNec_repeatMemory_clear h.repeatClear }

/-- Publishing a result of a decoder keeps the invariant: its tag is one of 2 to 9 (R30, R168). -/
theorem publish (h : Inv s) {r : Decoded} (htag : 2#7 ≤ r.tag.code ∧ r.tag.code ≤ 9#7) : Inv (s.publish r) :=
  { h with tagLegal := .inl (by rwa [State.tag, State.publish_proto, tag_publishedProto]) }

theorem acceptEdge (h : Inv s) (now : Time) : Inv (acceptEdge now s) := by
  obtain e | ⟨r, rest, hresults, -, e⟩ := acceptEdge_cases now s
  · rw [e]
    exact h.fannedOut now
  · rw [e]
    exact (h.fannedOut now).publish (results_tag (hresults ▸ List.mem_cons_self))

/-- Clearing NEW leaves the tag, and leaves the reset triple the reset triple (R181, R182). -/
theorem clearNew (h : Inv s) : Inv s.clearNew :=
  { h with
    tagLegal := h.tagLegal.imp (fun htag => by rwa [tag_clearNew])
      (fun ⟨hproto, haddr, hcmd⟩ => ⟨by rw [State.clearNew_proto, State.tag, hproto]; rfl, haddr, hcmd⟩) }

theorem respond (h : Inv s) (w : ResponseWord) : Inv (s.respond w) := { h with }

/-- A fault raised while no transmission is in flight (R222). -/
theorem setFault (h : Inv s) (hidle : s.txBusy = false) (f : Fault) : Inv (s.setFault f) :=
  { h with faultedIdle := fun _ => hidle }

/-- A transmission started while FAULT is clear (R190, R199). -/
theorem startTx (h : Inv s) (hfault : s.fault = none) (tx : Transmission) : Inv (s.startTx tx) :=
  { h with
    busyEmits := rfl
    faultedIdle := fun hset => by rw [State.startTx_fault, hfault] at hset; cases hset }

theorem endTx (h : Inv s) : Inv (s.clearBusy.drive none) :=
  { h with
    busyEmits := rfl
    faultedIdle := fun _ => rfl }

theorem passTurn (h : Inv s) : Inv s.passTurn := { h with }

theorem takeWord (h : Inv s) (a : Agent) : Inv (s.takeWord a) := { h with }

/-- The reset table meets the invariant, whatever the registers held before (R48, R250). -/
theorem resetRegisters (s : State) : Inv s.resetRegisters where
  necLegal := idle_legal (by decide)
  panLegal := idle_legal (by decide)
  sony8Legal := idle_legal (by decide)
  sony12Legal := idle_legal (by decide)
  sony15Legal := idle_legal (by decide)
  sony20Legal := idle_legal (by decide)
  necDisabled := fun _ => rfl
  panDisabled := fun _ => rfl
  sony8Disabled := fun _ => rfl
  sony12Disabled := fun _ => rfl
  sony15Disabled := fun _ => rfl
  sony20Disabled := fun _ => rfl
  tagLegal := .inr ⟨rfl, rfl, rfl⟩
  repeatClear := fun _ => rfl
  busyEmits := rfl
  faultedIdle := fun _ => rfl

/-- Every operation keeps the invariant. -/
theorem exec {i : Instr} {t : State} (h : Inv s) (hexec : exec i s = .next t) : Inv t := by
  cases i with
  | edge ts =>
    obtain ⟨-, ⟨-, rfl⟩ | ⟨-, rfl⟩⟩ := execEdge_next.1 hexec
    · exact h
    · exact h.acceptEdge ts
  | avail =>
    obtain ⟨-, rfl⟩ := execAvail_next.1 hexec
    exact h.respond _
  | read =>
    obtain ⟨-, rfl⟩ := execRead_next.1 hexec
    exact h.clearNew.respond _
  | send sel a c =>
    obtain ⟨hfault, ⟨-, rfl⟩ | ⟨hidle, -, rfl⟩ | ⟨-, tx, -, rfl⟩⟩ := execSend_next.1 hexec
    · exact h
    · exact h.setFault hidle _
    · exact h.startTx hfault tx
  | txdone =>
    obtain ⟨-, ⟨-, rfl⟩ | ⟨-, rfl⟩⟩ := execTxdone_next.1 hexec
    · exact h.endTx
    · exact h
  | reset =>
    obtain ⟨-, rfl⟩ := execReset_next.1 hexec
    exact resetRegisters _

end Inv

/-- Settles O54: a step waits, passes a turn, or takes a word and runs its operation, and each of these keeps the invariant. -/
theorem everyStepKeepsTheInvariant : Obligations.EveryStepKeepsTheInvariant := by
  intro s t hinv h
  obtain ⟨-, -, ⟨-, rfl⟩ | ⟨-, rfl⟩ | ⟨a, _, _, _, _, -, -, -, -, -, hexec⟩⟩ := step_next_cases h
  · exact hinv
  · exact hinv.passTurn
  · exact (hinv.takeWord a).exec hexec

end Sys2Proof.Machine

/-! PROOFS. The interface (20_memory.md): a READ repeated at once (R64, R182), and the two operations that can wait (R70, R226). -/

namespace Sys2Proof.Machine

/-! ### A READ repeated at once (R64, R182) -/

/-- READ's word is made of TAG, ADDR and CMD alone: NEW is no part of it (R181). -/
theorem readResponse_clearNew (s : State) :
    readResponse s.clearNew.proto s.addr s.cmd = readResponse s.proto s.addr s.cmd :=
  congrArg (0#8 ++ s.cmd ++ s.addr ++ 0#1 ++ ·) (tag_clearNew s)

@[simp] theorem clearNew_clearNew (s : State) : s.clearNew.clearNew = s.clearNew :=
  congrArg (fun tag => { s with proto := 0#1 ++ tag }) (tag_clearNew s)

/-- A second READ, in the state the first one left, appends the first one's word again and writes nothing else. -/
theorem exec_read_after_read {s : State} (h : s.fault = none) :
    exec .read (s.clearNew.respond (readResponse s.proto s.addr s.cmd)) =
      .next ((s.clearNew.respond (readResponse s.proto s.addr s.cmd)).respond
        (readResponse s.proto s.addr s.cmd)) := by
  have hcleared : ∀ w, (s.clearNew.respond w).clearNew = s.clearNew.respond w :=
    fun w => congrArg (State.respond w) (clearNew_clearNew s)
  exact execRead_next.2 ⟨h, (congrArg₂ State.respond (readResponse_clearNew s) (hcleared _)).symm⟩

/-- Settles O33: the first READ clears NEW, and the second appends the same word and writes nothing else. -/
theorem secondReadAnswersTheSame : Obligations.SecondReadAnswersTheSame := by
  intro s hfault
  exact ⟨_, _, readResponse s.proto s.addr s.cmd, execRead_next.2 ⟨hfault, rfl⟩, exec_read_after_read hfault,
    rfl, List.append_assoc _ _ _, isNew_clearNew s, rfl⟩

/-! ### The operations that can wait (R70, R226) -/

/-- Settles O38: of each operation's cases, the one that is not enabled leaves the state as it is. -/
theorem sendAndTxDoneWaitWhenNotEnabled : Obligations.SendAndTxDoneWaitWhenNotEnabled := by
  intro s sel a c hfault
  exact ⟨fun hbusy => execSend_next.2 ⟨hfault, .inl ⟨hbusy, rfl⟩⟩,
    fun hidle => execTxdone_next.2 ⟨hfault, .inr ⟨hidle, rfl⟩⟩⟩

end Sys2Proof.Machine

/-! PROOFS. The encoding (30_encoding.md): the bit layouts of a command word (R80, R82), decode against encode, the invalid words (R85), and the assembler's formulas (R89). -/

namespace Sys2Proof

/-! ### A word is the concatenation of its fields (R80, R82) -/

/-- A field within a field is a field of the word. -/
theorem extractLsb'_extractLsb'_of_add_le {w start len start' len' : Nat} {x : BitVec w} (h : start' + len' ≤ len) :
    (x.extractLsb' start len).extractLsb' start' len' = x.extractLsb' (start + start') len' := by
  ext i hi
  simp [Nat.add_assoc, show start' + i < len by omega]

/-- A field is a concatenation exactly when its upper and its lower part are the two parts. -/
theorem extractLsb'_eq_append_iff {w : Nat} (x : BitVec w) (start : Nat) {m n : Nat} (hi : BitVec m) (lo : BitVec n) :
    x.extractLsb' start (m + n) = hi ++ lo ↔ x.extractLsb' (start + n) m = hi ∧ x.extractLsb' start n = lo := by
  constructor
  · intro h
    constructor
    · rw [← extractLsb'_extractLsb'_of_add_le (by omega : n + m ≤ m + n), h, BitVec.extractLsb'_append_eq_left]
    · rw [← Nat.add_zero start, ← extractLsb'_extractLsb'_of_add_le (by omega : 0 + n ≤ m + n), h,
        BitVec.extractLsb'_append_eq_right]
  · rintro ⟨rfl, rfl⟩
    exact (BitVec.extractLsb'_append_extractLsb'_eq_extractLsb' rfl).symm

/-- The layout of every word: its payload above its opcode. -/
theorem word_eq_iff {w : CommandWord} {p : BitVec 60} {op : BitVec 4} :
    w = p ++ op ↔ payload w = p ∧ opField w = op := by
  have h := extractLsb'_eq_append_iff w 0 p op
  rwa [BitVec.extractLsb'_eq_self] at h

/-- EDGE's payload. -/
theorem payload_eq_edge_iff {w : CommandWord} {r : BitVec 28} {ts : Time} :
    payload w = r ++ ts ↔ edgeReserved w = r ∧ tsField w = ts :=
  extractLsb'_eq_append_iff w 4 r ts

/-- SEND's payload. -/
theorem payload_eq_send_iff {w : CommandWord} {r : BitVec 5} {cmd : BitVec 32} {addr : BitVec 16} {sel : BitVec 7} :
    payload w = r ++ cmd ++ addr ++ sel ↔
      ((sendReserved w = r ∧ cmdField w = cmd) ∧ addrField w = addr) ∧ selField w = sel := by
  unfold payload sendReserved cmdField addrField selField
  rw [← extractLsb'_eq_append_iff w 27 r cmd, ← extractLsb'_eq_append_iff w 11 (r ++ cmd) addr,
    ← extractLsb'_eq_append_iff w 4 (r ++ cmd ++ addr) sel]

/-! ### decode, opcode by opcode (R81, R85) -/

/-- `OP` is 0x0 or in 0x6 to 0xE (R85). -/
def ReservedOpcode (op : BitVec 4) : Prop := op.toNat = 0 ∨ 6 ≤ op.toNat ∧ op.toNat ≤ 14

theorem opcode_cases (op : BitVec 4) :
    ReservedOpcode op ∨ op = 0x1#4 ∨ op = 0x2#4 ∨ op = 0x3#4 ∨ op = 0x4#4 ∨ op = 0x5#4 ∨ op = 0xF#4 := by
  unfold ReservedOpcode
  revert op
  decide

section
variable {w : CommandWord}

theorem decode_of_edge (h : opField w = 0x1#4) :
    decode w = ifReservedZero w (edgeReserved w == 0#28) (.edge (tsField w)) := by simp [decode, h]

theorem decode_of_avail (h : opField w = 0x2#4) : decode w = ifReservedZero w (payload w == 0#60) .avail := by
  simp [decode, h]

theorem decode_of_read (h : opField w = 0x3#4) : decode w = ifReservedZero w (payload w == 0#60) .read := by
  simp [decode, h]

theorem decode_of_send (h : opField w = 0x4#4) :
    decode w = ifReservedZero w (sendReserved w == 0#5) (.send (selField w) (addrField w) (cmdField w)) := by
  simp [decode, h]

theorem decode_of_txdone (h : opField w = 0x5#4) : decode w = ifReservedZero w (payload w == 0#60) .txdone := by
  simp [decode, h]

theorem decode_of_reset (h : opField w = 0xF#4) : decode w = ifReservedZero w (payload w == 0#60) .reset := by
  simp [decode, h]

theorem decode_of_reserved (h : ReservedOpcode (opField w)) :
    decode w = .error (.reservedOpcode (opField w)) := by
  unfold ReservedOpcode at h
  unfold decode
  split
  case h_7 => rfl
  all_goals omega

end

/-- The check of the reserved bits lets an operation through exactly when they are 0. -/
theorem ifReservedZero_eq_ok_iff {w : CommandWord} {n : Nat} {reserved : BitVec n} {i j : Instr} :
    ifReservedZero w (reserved == 0#n) i = .ok j ↔ reserved = 0#n ∧ i = j := by
  by_cases h : reserved = 0#n <;> simp [ifReservedZero, h]

theorem ifReservedZero_eq_error_iff {w : CommandWord} {n : Nat} {reserved : BitVec n} {i : Instr} :
    (∃ e, ifReservedZero w (reserved == 0#n) i = .error e) ↔ reserved ≠ 0#n := by
  by_cases h : reserved = 0#n <;> simp [ifReservedZero, h]

/-! ### decode against encode (R80, R82) -/

theorem decode_encode (i : Instr) : decode (encode i) = .ok i := by
  cases i with
  | edge ts =>
    obtain ⟨hpay, hop⟩ := word_eq_iff.1 (rfl : encode (.edge ts) = 0#28 ++ ts ++ 0x1#4)
    obtain ⟨hres, hts⟩ := payload_eq_edge_iff.1 hpay
    rw [decode_of_edge hop, ifReservedZero_eq_ok_iff, hts]
    exact ⟨hres, rfl⟩
  | send sel addr cmd =>
    obtain ⟨hpay, hop⟩ := word_eq_iff.1 (rfl : encode (.send sel addr cmd) = 0#5 ++ cmd ++ addr ++ sel ++ 0x4#4)
    obtain ⟨⟨⟨hres, hcmd⟩, haddr⟩, hsel⟩ := payload_eq_send_iff.1 hpay
    rw [decode_of_send hop, ifReservedZero_eq_ok_iff, hsel, haddr, hcmd]
    exact ⟨hres, rfl⟩
  | avail | read | txdone | reset => rfl

/-- A valid word without operands is the word of its operation. -/
theorem encode_eq_of_bare {w : CommandWord} {i j : Instr} {op : BitVec 4} (hop : opField w = op)
    (hj : encode j = 0#60 ++ op) (h : ifReservedZero w (payload w == 0#60) j = .ok i) : encode i = w := by
  obtain ⟨hpay, rfl⟩ := ifReservedZero_eq_ok_iff.1 h
  exact hj.trans (word_eq_iff.2 ⟨hpay, hop⟩).symm

theorem encode_of_decode_eq_ok {w : CommandWord} {i : Instr} (h : decode w = .ok i) : encode i = w := by
  obtain hop | hop | hop | hop | hop | hop | hop := opcode_cases (opField w)
  · cases (decode_of_reserved hop).symm.trans h
  · obtain ⟨hres, rfl⟩ := ifReservedZero_eq_ok_iff.1 ((decode_of_edge hop).symm.trans h)
    exact (word_eq_iff.2 ⟨payload_eq_edge_iff.2 ⟨hres, rfl⟩, hop⟩).symm
  · exact encode_eq_of_bare hop rfl ((decode_of_avail hop).symm.trans h)
  · exact encode_eq_of_bare hop rfl ((decode_of_read hop).symm.trans h)
  · obtain ⟨hres, rfl⟩ := ifReservedZero_eq_ok_iff.1 ((decode_of_send hop).symm.trans h)
    exact (word_eq_iff.2 ⟨payload_eq_send_iff.2 ⟨⟨⟨hres, rfl⟩, rfl⟩, rfl⟩, hop⟩).symm
  · exact encode_eq_of_bare hop rfl ((decode_of_txdone hop).symm.trans h)
  · exact encode_eq_of_bare hop rfl ((decode_of_reset hop).symm.trans h)

/-- Settles O1: the fields of the word of an operation are its operands, its opcode and zeros. -/
theorem decodeOfEncodeIsTheOperation : Obligations.DecodeOfEncodeIsTheOperation :=
  decode_encode

/-- Settles O2: a word that passes the check of its reserved bits is the concatenation of its fields. -/
theorem encodeOfDecodeIsTheWord : Obligations.EncodeOfDecodeIsTheWord :=
  fun _ _ => encode_of_decode_eq_ok

/-- Settles O4: each word is the word of the operation named, and decode inverts encode. -/
theorem specWordsDecodeAsTheSpecSays : Obligations.SpecWordsDecodeAsTheSpecSays :=
  ⟨decode_encode (.edge 1000000#32), decode_encode (.edge 0xFFFFFFFF#32), decode_encode .avail, decode_encode .read,
    decode_encode (.send 0x02#7 0x00FF#16 0x1A#32), decode_encode (.send 0x02#7 0xFFFF#16 0xFFFFFFFF#32),
    decode_encode .txdone, decode_encode .reset, decode_encode (.send 0x00#7 0x0000#16 0#32),
    decode_encode (.send 0x7F#7 0x0000#16 0#32), decode_encode (.send 0x04#7 0x0000#16 0#32)⟩

/-! ### The invalid words (R85) -/

/-- The mask 0xF leaves the opcode (R80). -/
theorem and_0xF_eq_opField (w : CommandWord) : w &&& 0xF#64 = (opField w).setWidth 64 := by
  apply BitVec.eq_of_toNat_eq
  have hmask : (w &&& 0xF#64).toNat = w.toNat % 16 := Nat.and_two_pow_sub_one_eq_mod w.toNat 4
  have hop : (opField w).toNat = w.toNat % 16 := rfl
  rw [hmask, BitVec.toNat_setWidth, hop]
  omega

/-- A right shift that moves down an upper field answers 0 exactly when the field is 0. -/
theorem ushiftRight_eq_zero_iff {k n : Nat} (w : BitVec (n + k)) : w >>> k = 0#(n + k) ↔ w.extractLsb' k n = 0#n := by
  have hlt : w.toNat >>> k < 2 ^ n := by
    rw [Nat.shiftRight_eq_div_pow]
    exact Nat.div_lt_of_lt_mul (Nat.pow_add 2 k n ▸ Nat.add_comm n k ▸ w.isLt)
  simp [BitVec.toNat_eq, Nat.mod_eq_of_lt hlt]

theorem payload_eq_zero_iff {w : CommandWord} : payload w = 0#60 ↔ w >>> 4 = 0#64 :=
  (ushiftRight_eq_zero_iff (k := 4) (n := 60) w).symm

theorem edgeReserved_eq_zero_iff {w : CommandWord} : edgeReserved w = 0#28 ↔ w >>> 36 = 0#64 :=
  (ushiftRight_eq_zero_iff (k := 36) (n := 28) w).symm

theorem sendReserved_eq_zero_iff {w : CommandWord} : sendReserved w = 0#5 ↔ w >>> 59 = 0#64 :=
  (ushiftRight_eq_zero_iff (k := 59) (n := 5) w).symm

/-- R85's reserved opcodes, as the mask spells them. -/
theorem reservedOpcode_opField_iff {w : CommandWord} :
    ReservedOpcode (opField w) ↔ w &&& 0xF#64 = 0x0#64 ∨ 0x6#64 ≤ w &&& 0xF#64 ∧ w &&& 0xF#64 ≤ 0xE#64 := by
  rw [and_0xF_eq_opField, ReservedOpcode]
  bv_omega

/-- Settles O3: opcode by opcode, the check of the reserved bits is what decides. -/
theorem invalidWordsAreTheReservedOnes : Obligations.InvalidWordsAreTheReservedOnes := by
  intro w
  obtain hop | hop | hop | hop | hop | hop | hop := opcode_cases (opField w)
  · exact iff_of_true ⟨_, decode_of_reserved hop⟩ (or_assoc.1 (.inl (reservedOpcode_opField_iff.1 hop)))
  all_goals rw [and_0xF_eq_opField, hop]
  · simp [decode_of_edge hop, ifReservedZero_eq_error_iff, edgeReserved_eq_zero_iff]
  · simp [decode_of_avail hop, ifReservedZero_eq_error_iff, payload_eq_zero_iff]
  · simp [decode_of_read hop, ifReservedZero_eq_error_iff, payload_eq_zero_iff]
  · simp [decode_of_send hop, ifReservedZero_eq_error_iff, sendReserved_eq_zero_iff]
  · simp [decode_of_txdone hop, ifReservedZero_eq_error_iff, payload_eq_zero_iff]
  · simp [decode_of_reset hop, ifReservedZero_eq_error_iff, payload_eq_zero_iff]

/-! ### The assembler's formulas (R89) -/

/-- Settles O5: a concatenation, read at the word's width, is the disjunction of its shifted parts. -/
theorem encodingFollowsTheAssemblerFormula : Obligations.EncodingFollowsTheAssemblerFormula := by
  constructor
  · intro ts
    rw [encode, ← BitVec.setWidth_eq (0#28 ++ ts ++ 0x1#4), BitVec.setWidth_append_append_eq_shiftLeft_setWidth_or]
    simp [BitVec.or_comm]
  · intro sel addr cmd
    rw [encode, ← BitVec.setWidth_eq (0#5 ++ cmd ++ addr ++ sel ++ 0x4#4)]
    simp only [BitVec.setWidth_append_eq_shiftLeft_setWidth_or, BitVec.shiftLeft_or_distrib, ← BitVec.shiftLeft_add]
    simp [BitVec.or_comm, BitVec.or_assoc]

end Sys2Proof

/-! PROOFS. The classifier (40_classifier.md): the elapsed time modulo 2^32 (R11), saturated at the sentinel (R100 to R102). -/

namespace Sys2Proof.Machine

/-! ### The classified duration (R11, R100, R101) -/

/-- R11 on naturals: the borrow is added before the subtraction. -/
theorem toNat_sub32 (a b : Time) : (sub32 a b).toNat = (a.toNat + 2 ^ 32 - b.toNat) % 2 ^ 32 := by
  rw [sub32, BitVec.toNat_sub]
  congr 1
  omega

theorem classify_of_le {now lastEdge : Time} (h : 0xFFFF#32 ≤ sub32 now lastEdge) : classify now lastEdge = sentinel :=
  if_pos h

/-- Below the sentinel the low half of the elapsed time is all of it. -/
theorem toNat_classify_of_lt {now lastEdge : Time} (h : sub32 now lastEdge < 0xFFFF#32) :
    (classify now lastEdge).toNat = (sub32 now lastEdge).toNat := by
  have hlt : (sub32 now lastEdge).toNat < 65535 := h
  rw [classify, if_neg (BitVec.not_le.2 h), BitVec.extractLsb'_toNat, Nat.shiftRight_zero]
  exact Nat.mod_eq_of_lt (by omega)

/-- R101: the classified duration is the elapsed time, saturated. -/
theorem toNat_classify (now lastEdge : Time) : (classify now lastEdge).toNat = min (sub32 now lastEdge).toNat 65535 := by
  by_cases h : 0xFFFF#32 ≤ sub32 now lastEdge
  · rw [classify_of_le h]
    exact (min_eq_right h).symm
  · have hlt := BitVec.not_le.1 h
    rw [toNat_classify_of_lt hlt]
    exact (min_eq_left (Nat.le_of_lt hlt)).symm

/-- R102: the sentinel is the answer exactly from 65535 on. -/
theorem classify_eq_sentinel_iff {now lastEdge : Time} :
    classify now lastEdge = sentinel ↔ 65535 ≤ (sub32 now lastEdge).toNat := by
  rw [BitVec.toNat_eq, toNat_classify]
  exact min_eq_right_iff

end Sys2Proof.Machine

namespace Sys2Proof

/-- Settles O11: the classifier on naturals, with the elapsed time of R11. -/
theorem classifierSaturates : Obligations.ClassifierSaturates := by
  intro now last
  rw [← Machine.toNat_sub32]
  exact ⟨Machine.toNat_classify now last, Machine.classify_eq_sentinel_iff⟩

end Sys2Proof

/-! PROOFS. The decoders (41_decoders.md): the default tables (R113 to R115), the generic FSM step case by case (R117 to R129), what it can report (R155), and the assemblies as arithmetic on the frame (R130, R131, R140 to R149). -/

namespace Sys2Proof

/-! ### Windows and default bounds (R111, R113) -/

theorem Window.contains_iff {w : Window} {d : Duration} : w.contains d = true ↔ w.lo ≤ d ∧ d ≤ w.hi := by
  rw [Window.contains, Bool.and_eq_true, decide_eq_true_iff, decide_eq_true_iff]

theorem toNat_quarter (len : Duration) : (len / 4).toNat = len.toNat / 4 :=
  BitVec.toNat_udiv

/-- `L - floor(L/4)` never borrows. -/
theorem toNat_sub_quarter (len : Duration) : (len - len / 4).toNat = len.toNat - len.toNat / 4 := by
  have hle : len / 4 ≤ len := by
    rw [BitVec.le_def, toNat_quarter]
    exact Nat.div_le_self _ _
  rw [BitVec.toNat_sub_of_le hle, toNat_quarter]

/-- `L + floor(L/4)`, which wraps when it exceeds 65535. -/
theorem toNat_add_quarter (len : Duration) : (len + len / 4).toNat = (len.toNat + len.toNat / 4) % 65536 := by
  rw [BitVec.toNat_add, toNat_quarter]

theorem toNat_add_quarter_of_le {len : Duration} (h : len.toNat + len.toNat / 4 ≤ 65535) :
    (len + len / 4).toNat = len.toNat + len.toNat / 4 := by
  rw [toNat_add_quarter, Nat.mod_eq_of_lt (by omega)]

/-- A wrapped upper bound is below half of its length, so below every lower bound it goes with. -/
theorem toNat_add_quarter_lt_of_gt {len : Duration} (h : 65535 < len.toNat + len.toNat / 4) :
    (len + len / 4).toNat < len.toNat / 2 := by
  have hlen : len.toNat < 65536 := len.isLt
  rw [toNat_add_quarter]
  omega

theorem Window.around_not_ordered {len : Duration} (h : 65535 < len.toNat + len.toNat / 4) :
    (Window.around len).ordered = false := by
  have hhi := toNat_add_quarter_lt_of_gt h
  have hwrapped : (len + len / 4).toNat < (len - len / 4).toNat := by
    rw [toNat_sub_quarter]
    omega
  exact decide_eq_false (BitVec.not_le.2 hwrapped)

/-- The midpoint is at least half of `ONE`, which a wrapped `BIT_HI` is below. -/
theorem Timing.around_bitBounds_not_ordered {leadMark leadSpace half zero one : Duration}
    (h : 65535 < one.toNat + one.toNat / 4) :
    (Timing.around leadMark leadSpace half zero one).bitBoundsOrdered = false := by
  have hhi := toNat_add_quarter_lt_of_gt h
  have hwrapped : (one + one / 4).toNat < (midpoint zero one).toNat := by
    rw [Machine.midpoint_toNat]
    omega
  exact Bool.and_eq_false_iff.2 (.inr (decide_eq_false (BitVec.not_le.2 hwrapped)))

/-- Settles O57: each bound is a nominal length less or plus its quarter, or the midpoint of two. -/
theorem defaultWindowsAndBitBounds : Obligations.DefaultWindowsAndBitBounds :=
  ⟨fun len => ⟨fun h => ⟨toNat_sub_quarter len, toNat_add_quarter_of_le h⟩, Window.around_not_ordered⟩,
    fun _ _ _ zero one => ⟨rfl, rfl, rfl, toNat_sub_quarter zero, Machine.midpoint_toNat zero one,
      toNat_add_quarter_of_le, Timing.around_bitBounds_not_ordered⟩⟩

/-- Settles O58: the tables of R114 and R115 are the default bounds of R113 at their nominal lengths. -/
theorem defaultTimingTables : Obligations.DefaultTimingTables :=
  fun _ => ⟨rfl, rfl, rfl, rfl, rfl⟩

end Sys2Proof

namespace Sys2Proof.Machine

/-! ### The value of a bit (R118) -/

section
variable {t : Timing} {d : Duration}

theorem bitval_eq_zero (hlo : t.bitLo ≤ d) (hmid : d < t.bitMid) : bitval t d = some false :=
  if_pos ⟨hlo, hmid⟩

theorem bitval_eq_one (hmid : t.bitMid ≤ d) (hhi : d ≤ t.bitHi) : bitval t d = some true := by
  have hnotZero : ¬(t.bitLo ≤ d ∧ d < t.bitMid) := fun h => BitVec.not_lt.2 hmid h.2
  rw [bitval, if_neg hnotZero, if_pos ⟨hmid, hhi⟩]

theorem bitval_eq_none (hnotZero : ¬(t.bitLo ≤ d ∧ d < t.bitMid)) (hnotOne : ¬(t.bitMid ≤ d ∧ d ≤ t.bitHi)) :
    bitval t d = none := by
  rw [bitval, if_neg hnotZero, if_neg hnotOne]

end

/-! ### The parts of the FSM step, case by case (R119, R123 to R126, R129) -/

section
variable {n : Nat} {t : Timing} {rs : Option Window} {d : Duration} {onward : FsmState} {x : Decoder n}

theorem takeBit_of_mismatch (h : bitval t d = none) : takeBit t d onward x = (Decoder.idle, .nothing) := by
  simp only [takeBit, h]

theorem takeBit_of_last {b : Bool} (h : bitval t d = some b) (hlast : (x.cnt + 1#6).toNat = n) :
    takeBit t d onward x = (Decoder.idle, .frame (writeBit x.buf x.cnt.toNat b)) := by
  simp only [takeBit, h, if_pos hlast]

theorem takeBit_of_not_last {b : Bool} (h : bitval t d = some b) (hlast : (x.cnt + 1#6).toNat ≠ n) :
    takeBit t d onward x = (⟨onward, x.cnt + 1#6, writeBit x.buf x.cnt.toNat b⟩, .nothing) := by
  simp only [takeBit, h, if_neg hlast]

/-- R123 to R125 with each window's bounds written out. -/
theorem leadStep_eq : leadStep t rs d x =
    if t.leadSpace.window.lo ≤ d ∧ d ≤ t.leadSpace.window.hi then ({ x with st := .mark }, .nothing)
    else if rs.any (fun w => decide (w.lo ≤ d ∧ d ≤ w.hi)) = true then (Decoder.idle, .repeatCode)
    else (Decoder.idle, .nothing) := by
  have hrepeat : rs.any (Window.contains · d) = rs.any (fun w => decide (w.lo ≤ d ∧ d ≤ w.hi)) := by
    simp only [Window.contains, Bool.decide_and]
  simp only [leadStep, Window.contains_iff, hrepeat]

theorem leadStep_of_mismatch (hspace : t.leadSpace.window.contains d = false)
    (hrepeat : ∀ w, rs = some w → w.contains d = false) : leadStep t rs d x = (Decoder.idle, .nothing) := by
  have hnone : rs.any (Window.contains · d) = false := (Option.any_eq_false ..).2 hrepeat
  simp only [leadStep, hspace, hnone, Bool.false_eq_true, if_false]

/-- R126 and R129 with the window's bounds written out. -/
theorem halfStep_eq : halfStep t d onward x =
    if t.half.window.lo ≤ d ∧ d ≤ t.half.window.hi then ({ x with st := onward }, .nothing)
    else (Decoder.idle, .nothing) := by
  simp only [halfStep, Window.contains_iff]

theorem halfStep_of_mismatch (h : t.half.window.contains d = false) :
    halfStep t d onward x = (Decoder.idle, .nothing) := by
  simp only [halfStep, h, Bool.false_eq_true, if_false]

end

theorem Decoder.Legal.eq_idle {n : Nat} {x : Decoder n} (hx : x.Legal) (hst : x.st = .idle) : x = Decoder.idle := by
  obtain ⟨hcnt, hbuf⟩ := hx.emptyOutside (.inl hst)
  obtain ⟨st, cnt, buf⟩ := x
  subst hst hcnt hbuf
  rfl

/-! ### The FSM step by what the duration is and what the decoder awaits (R117, R120 to R129) -/

section
variable {n : Nat} {kind : Kind} {t : Timing} {rs : Option Window} {d : Duration} {x : Decoder n}

theorem fsmStep_of_timeout (h : t.timeout ≤ d) : fsmStep kind t rs d x = (Decoder.idle, .nothing) :=
  if_pos h

theorem fsmStep_of_leadMark (hto : d < t.timeout) (hlm : t.leadMark.window.contains d = true) :
    fsmStep kind t rs d x = (⟨.lead, 0#6, 0#n⟩, .nothing) := by
  simp only [fsmStep, if_neg (BitVec.not_le.2 hto), if_pos hlm]

section
variable (hto : d < t.timeout) (hlm : t.leadMark.window.contains d = false)
include hto hlm

theorem fsmStep_of_idle (hst : x.st = .idle) : fsmStep kind t rs d x = (x, .nothing) := by
  simp [fsmStep, BitVec.not_le.2 hto, hlm, hst]

theorem fsmStep_of_lead (hst : x.st = .lead) : fsmStep kind t rs d x = leadStep t rs d x := by
  simp [fsmStep, BitVec.not_le.2 hto, hlm, hst]

theorem fsmStep_dist_of_mark (hst : x.st = .mark) : fsmStep .dist t rs d x = halfStep t d .space x := by
  simp [fsmStep, BitVec.not_le.2 hto, hlm, hst]

theorem fsmStep_dist_of_space (hst : x.st = .space) : fsmStep .dist t rs d x = takeBit t d .mark x := by
  simp [fsmStep, BitVec.not_le.2 hto, hlm, hst]

theorem fsmStep_width_of_mark (hst : x.st = .mark) : fsmStep .width t rs d x = takeBit t d .space x := by
  simp [fsmStep, BitVec.not_le.2 hto, hlm, hst]

theorem fsmStep_width_of_space (hst : x.st = .space) : fsmStep .width t rs d x = halfStep t d .mark x := by
  simp [fsmStep, BitVec.not_le.2 hto, hlm, hst]

end

/-! ### A duration that fits nothing the decoder awaits (R116, R120, R122, R125 to R129) -/

/-- R116: a timeout and a mismatch have the same effect, so a mismatch need only be looked at below the timeout. -/
theorem fsmStep_resets_of_below_timeout (h : d < t.timeout → fsmStep kind t rs d x = (Decoder.idle, .nothing)) :
    fsmStep kind t rs d x = (Decoder.idle, .nothing) := by
  by_cases hto : t.timeout ≤ d
  · exact fsmStep_of_timeout hto
  · exact h (BitVec.not_le.1 hto)

section
variable (hlm : t.leadMark.window.contains d = false)
include hlm

theorem fsmStep_of_lead_mismatch (hst : x.st = .lead) (hspace : t.leadSpace.window.contains d = false)
    (hrepeat : ∀ w, rs = some w → w.contains d = false) : fsmStep kind t rs d x = (Decoder.idle, .nothing) :=
  fsmStep_resets_of_below_timeout fun hto => by
    rw [fsmStep_of_lead hto hlm hst, leadStep_of_mismatch hspace hrepeat]

theorem fsmStep_of_half_mismatch (hst : kind = .dist ∧ x.st = .mark ∨ kind = .width ∧ x.st = .space)
    (h : t.half.window.contains d = false) : fsmStep kind t rs d x = (Decoder.idle, .nothing) := by
  refine fsmStep_resets_of_below_timeout fun hto => ?_
  obtain ⟨rfl, hst⟩ | ⟨rfl, hst⟩ := hst
  · rw [fsmStep_dist_of_mark hto hlm hst, halfStep_of_mismatch h]
  · rw [fsmStep_width_of_space hto hlm hst, halfStep_of_mismatch h]

theorem fsmStep_of_bit_mismatch (hst : kind = .dist ∧ x.st = .space ∨ kind = .width ∧ x.st = .mark)
    (h : bitval t d = none) : fsmStep kind t rs d x = (Decoder.idle, .nothing) := by
  refine fsmStep_resets_of_below_timeout fun hto => ?_
  obtain ⟨rfl, hst⟩ | ⟨rfl, hst⟩ := hst
  · rw [fsmStep_dist_of_space hto hlm hst, takeBit_of_mismatch h]
  · rw [fsmStep_width_of_mark hto hlm hst, takeBit_of_mismatch h]

/-- An idle decoder holds no bits (R37), so staying as it is and being reset are one. -/
theorem fsmStep_of_idle_legal (hx : x.Legal) (hst : x.st = .idle) :
    fsmStep kind t rs d x = (Decoder.idle, .nothing) :=
  fsmStep_resets_of_below_timeout fun hto => by rw [fsmStep_of_idle hto hlm hst, hx.eq_idle hst]

end

/-! ### What a step can report (R155) -/

/-- Taking a bit reports a frame only if the duration has a value and the bit is the last. -/
theorem takeBit_frame {onward : FsmState} {buf : BitVec n} (h : (takeBit t d onward x).2 = .frame buf) :
    bitval t d ≠ none ∧ (x.cnt + 1#6).toNat = n := by
  obtain ⟨-, e⟩ | ⟨b, hbit, ⟨hlast, -⟩ | ⟨-, e⟩⟩ := takeBit_cases t d onward x
  · rw [e] at h
    cases h
  · exact ⟨by rw [hbit]; exact Option.some_ne_none b, hlast⟩
  · rw [e] at h
    cases h

theorem takeBit_ne_repeatCode {onward : FsmState} : (takeBit t d onward x).2 ≠ .repeatCode := by
  obtain ⟨-, e⟩ | ⟨b, -, ⟨-, e⟩ | ⟨-, e⟩⟩ := takeBit_cases t d onward x <;> rw [e] <;> exact nofun

theorem halfStep_reports_nothing {onward : FsmState} : (halfStep t d onward x).2 = .nothing := by
  obtain ⟨-, e⟩ | ⟨-, e⟩ := halfStep_cases t d onward x <;> rw [e]

theorem leadStep_ne_frame {buf : BitVec n} : (leadStep t rs d x).2 ≠ .frame buf := by
  obtain e | ⟨w, -, -, e⟩ | e := leadStep_cases t rs d x <;> rw [e] <;> exact nofun

/-- A frame is reported only where a bit is taken, on the last one. -/
theorem fsmStep_frame {buf : BitVec n} (h : (fsmStep kind t rs d x).2 = .frame buf) :
    (x.st = .mark ∨ x.st = .space) ∧ bitval t d ≠ none ∧ (x.cnt + 1#6).toNat = n := by
  obtain e | e | ⟨-, e⟩ | ⟨-, e⟩ | ⟨onward, -, hst, e | e⟩ := fsmStep_cases kind t rs d x <;> rw [e] at h
  · cases h
  · cases h
  · cases h
  · exact absurd h leadStep_ne_frame
  · rw [halfStep_reports_nothing] at h
    cases h
  · exact ⟨hst, takeBit_frame h⟩

theorem fsmStep_repeatCode (h : (fsmStep kind t rs d x).2 = .repeatCode) : x.st = .lead := by
  obtain e | e | ⟨-, e⟩ | ⟨hst, e⟩ | ⟨onward, -, -, e | e⟩ := fsmStep_cases kind t rs d x <;> rw [e] at h
  · cases h
  · cases h
  · cases h
  · exact hst
  · rw [halfStep_reports_nothing] at h
    cases h
  · exact absurd h takeBit_ne_repeatCode

end

/-! ### The assemblies as arithmetic on the frame (R130, R131, R140, R146 to R149) -/

theorem toNat_extractLsb' {w : Nat} (x : BitVec w) (start len : Nat) :
    (x.extractLsb' start len).toNat = x.toNat / 2 ^ start % 2 ^ len := by
  rw [BitVec.extractLsb'_toNat, Nat.shiftRight_eq_div_pow]

theorem toNat_lowField {w : Nat} (x : BitVec w) (len : Nat) : (x.extractLsb' 0 len).toNat = x.toNat % 2 ^ len := by
  rw [toNat_extractLsb', Nat.pow_zero, Nat.div_one]

/-- A field that reaches the top of the vector keeps the whole quotient. -/
theorem toNat_highField {w start len : Nat} (x : BitVec w) (h : w ≤ start + len) :
    (x.extractLsb' start len).toNat = x.toNat / 2 ^ start := by
  have hlt : x.toNat < 2 ^ start * 2 ^ len := by
    rw [← Nat.pow_add]
    exact Nat.lt_of_lt_of_le x.isLt (Nat.pow_le_pow_right (by decide) h)
  rw [toNat_extractLsb', Nat.mod_eq_of_lt (Nat.div_lt_of_lt_mul hlt)]

theorem toNat_append_eq_add {m n : Nat} (hi : BitVec m) (lo : BitVec n) :
    (hi ++ lo).toNat = hi.toNat * 2 ^ n + lo.toNat := by
  rw [BitVec.toNat_append, ← Nat.shiftLeft_add_eq_or_of_lt lo.isLt, Nat.shiftLeft_eq]

/-- The complement checks of R130, as differences from 255. -/
theorem eq_not_iff_toNat {a b : BitVec 8} : a = ~~~b ↔ a.toNat = 255 - b.toNat := by
  rw [BitVec.toNat_eq, BitVec.toNat_not]

/-- The tag that R130 gives a NEC frame, by the check of its address bytes. -/
def necTag (buf : BitVec 32) : Tag :=
  if buf.extractLsb' 8 8 = ~~~(buf.extractLsb' 0 8) then .nec else .necExtended

section
variable {c : Config} {now : Time} {rep : RepeatMemory} {buf : BitVec 32}

theorem assembleNec_of_command_mismatch (h : buf.extractLsb' 24 8 ≠ ~~~(buf.extractLsb' 16 8)) :
    assembleNec c now rep buf = (rep, none) :=
  if_pos h

theorem assembleNec_of_disabled (htag : c.tagEnabled (necTag buf) = false) :
    assembleNec c now rep buf = (rep, none) := by
  rw [necTag] at htag
  simp [assembleNec, htag]

theorem assembleNec_of_enabled (h : buf.extractLsb' 24 8 = ~~~(buf.extractLsb' 16 8))
    (htag : c.tagEnabled (necTag buf) = true) :
    assembleNec c now rep buf =
      (RepeatMemory.store (buf.extractLsb' 0 16) (buf.extractLsb' 16 8) now,
       some ⟨necTag buf, buf.extractLsb' 0 16, (buf.extractLsb' 16 8).setWidth 32⟩) := by
  rw [necTag] at htag
  simp [assembleNec, necTag, h, htag]

theorem necRepeat_of_fires (hen : c.tagEnabled .necRepeat = true) (hvalid : rep.valid = true)
    (hwindow : sub32 now rep.time < c.necRepeatWindow) :
    necRepeat c now rep = ({ rep with time := now }, some ⟨.necRepeat, rep.addr, rep.cmd.setWidth 32⟩) :=
  if_pos ⟨hen, hvalid, hwindow⟩

theorem necRepeat_of_not_fires
    (h : ¬(c.tagEnabled .necRepeat = true ∧ rep.valid = true ∧ sub32 now rep.time < c.necRepeatWindow)) :
    necRepeat c now rep = (rep, none) :=
  if_neg h

/-- `b3 = 255 - b2` on the frame's own arithmetic. -/
theorem command_check_iff : buf.extractLsb' 24 8 = ~~~(buf.extractLsb' 16 8) ↔
    buf.toNat / 2 ^ 24 = 255 - buf.toNat / 2 ^ 16 % 256 := by
  rw [eq_not_iff_toNat, toNat_highField buf (by decide), toNat_extractLsb']
  exact Iff.rfl

theorem necTag_eq : necTag buf =
    if buf.toNat / 2 ^ 8 % 256 = 255 - buf.toNat % 256 then .nec else .necExtended := by
  simp only [necTag, eq_not_iff_toNat, toNat_extractLsb', Nat.pow_zero, Nat.div_one, Nat.reducePow]

/-- The address holds both bytes, the first received below. -/
theorem necAddress_eq : buf.extractLsb' 0 16 =
    BitVec.ofNat 16 (buf.toNat % 256 + 256 * (buf.toNat / 2 ^ 8 % 256)) := by
  rw [BitVec.toNat_eq, toNat_extractLsb', BitVec.toNat_ofNat]
  omega

theorem necCommand_eq : buf.extractLsb' 16 8 = BitVec.ofNat 8 (buf.toNat / 2 ^ 16 % 256) := by
  rw [BitVec.toNat_eq, toNat_extractLsb', BitVec.toNat_ofNat]
  omega

end

end Sys2Proof.Machine

namespace Sys2Proof

open Machine

/-! ### The statements -/

/-- Settles O12: the three clauses exclude one another; the corner cases are evaluated. -/
theorem bitValueOfADuration : Obligations.BitValueOfADuration :=
  ⟨fun _ _ => ⟨bitval_eq_zero, bitval_eq_one, bitval_eq_none⟩, fun _ => rfl⟩

/-- Settles O13: the timeout is the first check of a step. -/
theorem timeoutSendsAnyStateToIdle : Obligations.TimeoutSendsAnyStateToIdle :=
  fun _ _ _ _ _ _ => fsmStep_of_timeout

/-- Settles O15: the lead mark is the second check of a step. -/
theorem leadMarkRestartsAnyState : Obligations.LeadMarkRestartsAnyState :=
  fun _ _ _ _ _ _ hto hlo hhi => fsmStep_of_leadMark hto (Window.contains_iff.2 ⟨hlo, hhi⟩)

/-- Settles O16: past the first two checks, a step is the part of its state and kind. -/
theorem transitionsOfEachState : Obligations.TransitionsOfEachState := by
  intro n t rs d x hto hbounds
  have hlm : t.leadMark.window.contains d = false := Bool.eq_false_iff.2 (Window.contains_iff.not.2 hbounds)
  refine ⟨fun kind => fsmStep_of_idle hto hlm, fun kind hst => ?_, fun hst => ?_, fsmStep_dist_of_space hto hlm,
    fsmStep_width_of_mark hto hlm, fun hst => ?_⟩
  · rw [fsmStep_of_lead hto hlm hst, leadStep_eq]
  · rw [fsmStep_dist_of_mark hto hlm hst, halfStep_eq]
  · rw [fsmStep_width_of_space hto hlm hst, halfStep_eq]

/-- Settles O17: the buffer is the bit write at CNT, and CNT, which is below 48, counts without wrapping. -/
theorem takingABit : Obligations.TakingABit := by
  intro n t d onward x hn hx
  have hcnt := cnt_succ hn hx.countInFrame
  refine ⟨takeBit_of_mismatch, fun b hb => ⟨writeBit x.buf x.cnt.toNat b, fun j => ?_, fun hlast => ?_, fun hlast => ?_⟩⟩
  · rw [getLsbD_writeBit]
    simp only [hx.countInFrame, and_true]
  · exact takeBit_of_last hb (hcnt.trans hlast)
  · exact ⟨takeBit_of_not_last hb (by omega), hcnt⟩

/-- Settles O18: a report comes from the last bit or from LEAD, and whatever fits nothing awaited resets the decoder. -/
theorem noPartialFrameIsSurfaced : Obligations.NoPartialFrameIsSurfaced := by
  intro n kind t rs d x hn hx
  refine ⟨fun buf h => ?_, fun h => ⟨fsmStep_repeatCode h, fsmStep_idle_of_report ?_⟩, fsmStep_of_timeout,
    fun hlm => ⟨fsmStep_of_idle_legal hlm hx, fsmStep_of_lead_mismatch hlm, fsmStep_of_half_mismatch hlm,
      fsmStep_of_bit_mismatch hlm⟩⟩
  · obtain ⟨hst, hbit, hlast⟩ := fsmStep_frame h
    rw [cnt_succ hn hx.countInFrame] at hlast
    exact ⟨hlast, hst, hbit, fsmStep_idle_of_report (by rw [h]; exact nofun)⟩
  · rw [h]
    exact nofun

/-- Settles O19: the checks and the byte fields of the frame, each as its arithmetic. -/
theorem necAssembly : Obligations.NecAssembly := by
  intro c now rep buf b0 b1 b2 b3 tag
  have htag : necTag buf = tag := necTag_eq
  refine ⟨fun h => ?_, fun hoff => ?_, fun h hon => ?_⟩
  · exact assembleNec_of_command_mismatch (command_check_iff.not.2 h)
  · exact assembleNec_of_disabled (htag ▸ hoff)
  · rw [assembleNec_of_enabled (command_check_iff.2 h) (htag ▸ hon), htag, necAddress_eq, necCommand_eq, RepeatMemory.store,
      BitVec.setWidth_ofNat_of_le_of_lt (by decide) (Nat.mod_lt _ (by decide))]

/-- Settles O20: the repeat code fires on its three conditions together, and the clauses of the other case each deny one. -/
theorem necRepeatFires : Obligations.NecRepeatFires := by
  refine fun c now rep => ⟨necRepeat_of_fires, fun h => necRepeat_of_not_fires ?_⟩
  rintro ⟨hen, hvalid, hwindow⟩
  obtain hoff | hinvalid | hlate := h
  · exact Bool.false_ne_true (hoff.symm.trans hen)
  · exact Bool.false_ne_true (hinvalid.symm.trans hvalid)
  · exact BitVec.not_lt.2 hlate hwindow

/-- Settles O21: a field at the bottom of the frame is a remainder, one at its top a quotient. -/
theorem panasonicAndSonyAssembly : Obligations.PanasonicAndSonyAssembly := by
  refine ⟨fun buf => ⟨rfl, toNat_lowField buf 16, toNat_highField buf (by decide)⟩, fun buf => ⟨rfl, rfl, ?_⟩,
    fun buf => ⟨rfl, ?_, ?_⟩, fun buf => ⟨rfl, ?_, ?_⟩, fun buf => ⟨rfl, ?_, ?_⟩, rfl, rfl, rfl, rfl, rfl⟩
  · exact BitVec.toNat_setWidth_of_le (by decide)
  · exact (BitVec.toNat_setWidth_of_le (by decide)).trans (toNat_highField buf (by decide))
  · exact (BitVec.toNat_setWidth_of_le (by decide)).trans (toNat_lowField buf 7)
  · exact (BitVec.toNat_setWidth_of_le (by decide)).trans (toNat_highField buf (by decide))
  · exact (BitVec.toNat_setWidth_of_le (by decide)).trans (toNat_lowField buf 7)
  · exact (BitVec.toNat_setWidth_of_le (by decide)).trans (toNat_extractLsb' buf 7 5)
  · calc (assembleSony20 buf).cmd.toNat
        = (buf.extractLsb' 12 8 ++ buf.extractLsb' 0 7).toNat := BitVec.toNat_setWidth_of_le (by decide)
      _ = (buf.extractLsb' 12 8).toNat * 2 ^ 7 + (buf.extractLsb' 0 7).toNat := toNat_append_eq_add ..
      _ = buf.toNat / 2 ^ 12 * 2 ^ 7 + buf.toNat % 2 ^ 7 := by
        rw [toNat_highField buf (by decide), toNat_lowField]

end Sys2Proof

/-! PROOFS. Dispatch (42_dispatch.md): the gate of an EDGE (R160, R161), the fan-out (R162, R163), the first result by priority (R164, R165), and its debounce and publication (R166 to R168, R171). -/

namespace Sys2Proof.Machine

/-! ### The gate (R160, R161) -/

theorem dropsEdge_iff {s : State} : s.dropsEdge = true ↔ s.proto.getLsbD 7 = true ∨ s.txBusy = true :=
  Bool.or_eq_true_iff

theorem dropsEdge_eq_false_iff {s : State} :
    s.dropsEdge = false ↔ s.proto.getLsbD 7 = false ∧ s.txBusy = false :=
  Bool.or_eq_false_iff

theorem exec_edge_of_dropped {s : State} (hfault : s.fault = none)
    (hdrop : s.proto.getLsbD 7 = true ∨ s.txBusy = true) (ts : Time) : exec (.edge ts) s = .next s :=
  execEdge_next.2 ⟨hfault, .inl ⟨dropsEdge_iff.2 hdrop, rfl⟩⟩

theorem exec_edge_of_accepted {s : State} (hfault : s.fault = none) (hnew : s.proto.getLsbD 7 = false)
    (hidle : s.txBusy = false) (ts : Time) : exec (.edge ts) s = .next (acceptEdge ts s) :=
  execEdge_next.2 ⟨hfault, .inr ⟨dropsEdge_eq_false_iff.2 ⟨hnew, hidle⟩, rfl⟩⟩

/-- An EDGE that passes the gate and completes is an accepted one. -/
theorem eq_acceptEdge_of_exec_edge {s t : State} {ts : Time} (hnew : s.proto.getLsbD 7 = false)
    (hidle : s.txBusy = false) (h : exec (.edge ts) s = .next t) : t = acceptEdge ts s := by
  obtain ⟨hfault, -⟩ := execEdge_next.1 h
  rw [exec_edge_of_accepted hfault hnew hidle, next_inj] at h
  exact h.symm

/-! ### The fan-out (R162, R163) -/

theorem stepNec_decoder (c : Config) (now : Time) (d : Duration) (x : Decoder 32) (rep : RepeatMemory) :
    (stepNec c now d x rep).1 =
      if c.necEnabled = true then (fsmStep .dist c.nec (some c.necRepeatSpace.window) d x).1 else x := by
  obtain ⟨hen, e⟩ | ⟨hen, e⟩ := stepNec_cases c now d x rep <;> simp [hen, e]

theorem stepNec_rep (c : Config) (now : Time) (d : Duration) (x : Decoder 32) (rep : RepeatMemory) :
    (stepNec c now d x rep).2.1 =
      if c.necEnabled = true then
        (necResult c now rep (fsmStep .dist c.nec (some c.necRepeatSpace.window) d x).2).1
      else rep := by
  obtain ⟨hen, e⟩ | ⟨hen, e⟩ := stepNec_cases c now d x rep <;> simp [hen, e]

theorem stepPlain_decoder {n : Nat} (c : Config) (p : Proto) (tag : Tag) (assemble : BitVec n → Decoded) (d : Duration)
    (x : Decoder n) :
    (stepPlain c p tag assemble d x).1 =
      if c.tagEnabled tag = true then (fsmStep p.kind (c.timing p) none d x).1 else x := by
  obtain ⟨hen, e⟩ | ⟨hen, e⟩ := stepPlain_cases c p tag assemble d x <;> simp [hen, e]

/-! ### Priority, debounce and publication (R164 to R168) -/

/-- The first result in the order of R164 is that of the first instance that yields one. -/
theorem results_head? (now : Time) (d : Duration) (s : State) :
    (results now d s).head? =
      ((stepNec s.config now d s.nec s.rep).2.2
        <|> (stepPlain s.config .pan .panasonic assemblePan d s.pan).2
        <|> (stepPlain s.config .sony .sony8 assembleSony8 d s.sony8).2
        <|> (stepPlain s.config .sony .sony12 assembleSony12 d s.sony12).2
        <|> (stepPlain s.config .sony .sony15 assembleSony15 d s.sony15).2
        <|> (stepPlain s.config .sony .sony20 assembleSony20 d s.sony20).2) := by
  simp only [results_eq, List.head?_append, Option.head?_toList, Option.or_assoc, Option.orElse_eq_orElse,
    Option.orElse_eq_or]

/-- The byte a publication writes, with NEW and the tag joined by an or as R168 writes it. -/
theorem publishedProto_eq (tag : Tag) : publishedProto tag = 0x80#8 ||| tag.code.setWidth 8 := by
  cases tag <;> rfl

/-- LAST_EDGE already holds the edge's timestamp when the debounce is tested (R162, R166). -/
theorem suppresses_fannedOut (now : Time) (s : State) :
    (fannedOut now s).suppresses = decide (sub32 now s.lastEvent < s.config.debounce) := rfl

section
variable {now : Time} {s : State}

theorem acceptEdge_of_no_result (h : (results now (classify now s.lastEdge) (s.setLastEdge now)).head? = none) :
    acceptEdge now s = fannedOut now s :=
  congrArg (arbitrate · (fannedOut now s)) (List.head?_eq_none_iff.1 h)

theorem acceptEdge_of_suppressed (h : sub32 now s.lastEvent < s.config.debounce) :
    acceptEdge now s = fannedOut now s := by
  obtain e | ⟨-, -, -, hle, -⟩ := acceptEdge_cases now s
  · exact e
  · exact absurd h (BitVec.not_lt.2 hle)

theorem acceptEdge_of_published {r : Decoded}
    (hr : (results now (classify now s.lastEdge) (s.setLastEdge now)).head? = some r)
    (hd : s.config.debounce ≤ sub32 now s.lastEvent) : acceptEdge now s = (fannedOut now s).publish r := by
  obtain ⟨rest, hrest⟩ := List.head?_eq_some_iff.1 hr
  have hpass : (fannedOut now s).suppresses = false := by
    rw [suppresses_fannedOut, decide_eq_false (BitVec.not_lt.2 hd)]
  calc acceptEdge now s
      = arbitrate (r :: rest) (fannedOut now s) := congrArg (arbitrate · (fannedOut now s)) hrest
    _ = (fannedOut now s).publish r := by
      rw [arbitrate, hpass, if_neg Bool.false_ne_true]

end

/-! ### The statements -/

/-- Settles O23: the gate drops an EDGE or accepts it; an accepted one ends in the fan-out or in a publication over it, which writes neither a decoder nor the repeat memory. -/
theorem acceptedEdgeStepsEveryEnabledInstance : Obligations.AcceptedEdgeStepsEveryEnabledInstance := by
  intro s ts hfault
  cases hgate : s.dropsEdge with
  | true =>
    refine ⟨s, exec_edge_of_dropped hfault (dropsEdge_iff.1 hgate) ts, fun _ => rfl, fun hnew hidle => ?_⟩
    rw [dropsEdge_eq_false_iff.2 ⟨hnew, hidle⟩] at hgate
    cases hgate
  | false =>
    obtain ⟨hnew, hidle⟩ := dropsEdge_eq_false_iff.1 hgate
    refine ⟨_, exec_edge_of_accepted hfault hnew hidle ts, fun hdrop => ?_, fun _ _ => ?_⟩
    · rw [dropsEdge_iff.2 hdrop] at hgate
      cases hgate
    · obtain e | ⟨r, rest, -, -, e⟩ := acceptEdge_cases ts s <;> rw [e] <;>
        exact ⟨rfl, stepNec_decoder .., stepPlain_decoder .., stepPlain_decoder .., stepPlain_decoder ..,
          stepPlain_decoder .., stepPlain_decoder .., stepNec_rep ..⟩

/-- Settles O25: the first of the fan-out's results decides: published, suppressed, or absent. -/
theorem firstResultIsPublishedOrSuppressed : Obligations.FirstResultIsPublishedOrSuppressed := by
  intro s t ts hnew hidle h d first
  obtain rfl := eq_acceptEdge_of_exec_edge hnew hidle h
  have hfirst : (results ts d (s.setLastEdge ts)).head? = first := results_head? ts d (s.setLastEdge ts)
  refine ⟨fun r hr hd => ?_, fun r _ hd => ?_, fun hnone => ?_⟩
  · rw [acceptEdge_of_published (hfirst.trans hr) hd]
    exact ⟨publishedProto_eq r.tag, rfl, rfl, rfl⟩
  · rw [acceptEdge_of_suppressed hd]
    exact ⟨rfl, rfl, rfl, rfl⟩
  · rw [acceptEdge_of_no_result (hfirst.trans hnone)]
    exact ⟨rfl, rfl, rfl, rfl⟩

/-- Settles O27: no distance from LAST_EVENT is below a DEBOUNCE of 0, so the first result is published. -/
theorem zeroDebouncePublishesEveryWinner : Obligations.ZeroDebouncePublishesEveryWinner := by
  intro s ts r rest hfault hnew hidle hzero hresults
  have hd : s.config.debounce ≤ sub32 ts s.lastEvent := BitVec.not_lt.1 (hzero ▸ BitVec.not_lt_zero)
  have hr : (results ts (classify ts s.lastEdge) (s.setLastEdge ts)).head? = some r := hresults ▸ rfl
  refine ⟨(fannedOut ts s).publish r, ?_, isNew_publishedProto r.tag, tag_publishedProto r.tag, rfl, rfl, rfl⟩
  rw [exec_edge_of_accepted hfault hnew hidle, acceptEdge_of_published hr hd]

/-- Settles O28, by induction on the edges: each is dropped, and leaves the state in which the next is dropped. -/
theorem everyEdgeIsLostWhilePendingOrBusy : Obligations.EveryEdgeIsLostWhilePendingOrBusy := by
  intro s times hfault hdrop
  induction times with
  | nil => rfl
  | cons ts times ih =>
    rw [List.map_cons, execAll, exec_edge_of_dropped hfault hdrop]
    exact ih

/-- Settles O22: the gate drops it. -/
theorem droppedEdgeChangesNothing : Obligations.DroppedEdgeChangesNothing :=
  fun _ ts hfault hdrop => exec_edge_of_dropped hfault hdrop ts

/-- Settles O26: the four writes of `publish`, with NEW and the tag written as one byte. -/
theorem publicationWritesTheFourRegisters : Obligations.PublicationWritesTheFourRegisters :=
  fun s tag a c =>
    congrArg (fun proto => { s with proto := proto, addr := a, cmd := c, lastEvent := s.lastEdge }) (publishedProto_eq tag)

end Sys2Proof.Machine

/-! PROOFS. The repository (43_repository.md): AVAILABLE's and READ's words (R88, R180, R181), what an operation may do to the repository (R168, R181, R250), the clearing of NEW (R183), and no tearing (R184). -/

namespace Sys2Proof.Machine

/-! ### The response words (R88, R180, R181) -/

/-- AVAILABLE's word is 1 or 0, as NEW is. -/
theorem availResponse_eq (p : BitVec 8) : availResponse p = if p.getLsbD 7 = true then 1#64 else 0#64 := by
  have hbit : p.extractLsb' 7 1 = BitVec.ofBool (p.getLsbD 7) := by
    ext i hi
    simp [show i = 0 by omega]
  rw [availResponse, hbit]
  cases p.getLsbD 7 <;> rfl

/-- Clearing NEW is the mask 0x7F (R181). -/
theorem zero_append_tag_eq_and (p : BitVec 8) : 0#1 ++ p.extractLsb' 0 7 = p &&& 0x7F#8 := by
  apply BitVec.eq_of_toNat_eq
  have hmask : (p &&& 0x7F#8).toNat = p.toNat % 2 ^ 7 := Nat.and_two_pow_sub_one_eq_mod p.toNat 7
  rw [hmask, toNat_append_eq_add, toNat_lowField]
  simp

/-- A concatenation in a word of any width is its upper part shifted over its lower part. -/
theorem setWidth_append_eq_shiftLeft_or {m n : Nat} (w : Nat) (hi : BitVec m) (lo : BitVec n) :
    (hi ++ lo).setWidth w = hi.setWidth w <<< n ||| lo.setWidth w := by
  ext i hlt
  by_cases h : i < n
  · simp [BitVec.getLsbD_append, h]
  · simp [BitVec.getLsbD_append, h, BitVec.getLsbD_of_ge lo i (Nat.le_of_not_lt h)]

/-- READ's word, with the three fields shifted to their places (R88). -/
theorem readResponse_eq (p : BitVec 8) (a : BitVec 16) (c : BitVec 32) :
    readResponse p a c = (p &&& 0x7F#8).setWidth 64 ||| (a.setWidth 64 <<< 8) ||| (c.setWidth 64 <<< 24) := by
  have hparts : readResponse p a c = (0#8 ++ c ++ a ++ (0#1 ++ p.extractLsb' 0 7)).setWidth 64 :=
    BitVec.append_assoc ..
  have hzero : (0#8 ++ c).setWidth 64 = c.setWidth 64 := by
    rw [setWidth_append_eq_shiftLeft_or, BitVec.setWidth_zero, BitVec.zero_shiftLeft, BitVec.zero_or]
  rw [hparts, zero_append_tag_eq_and, setWidth_append_eq_shiftLeft_or, setWidth_append_eq_shiftLeft_or, hzero,
    BitVec.shiftLeft_or_distrib, ← BitVec.shiftLeft_add, BitVec.or_comm, BitVec.or_comm (_ <<< _), BitVec.or_assoc]

/-- Settles O31: AVAILABLE appends its word and writes no register. -/
theorem availableAnswersNew : Obligations.AvailableAnswersNew := by
  intro s hfault
  rw [← availResponse_eq]
  exact execAvail_next.2 ⟨hfault, rfl⟩

/-- Settles O32: READ appends its word and masks NEW out of PROTO. -/
theorem readAnswersTheTripleAndClearsNew : Obligations.ReadAnswersTheTripleAndClearsNew := by
  intro s hfault
  rw [← readResponse_eq, ← zero_append_tag_eq_and]
  exact execRead_next.2 ⟨hfault, rfl⟩

/-! ### What an operation may do to the repository (R168, R181, R250) -/

/-- Two states hold the same repository: `PROTO`, which is NEW and TAG, `ADDR` and `CMD` (R30, R31). -/
def State.SameRepository (t s : State) : Prop :=
  t.proto = s.proto ∧ t.addr = s.addr ∧ t.cmd = s.cmd

/-- The four things an operation can do to the repository: leave it, publish one result of an EDGE while NEW is 0, clear NEW, or reset it. -/
theorem exec_repository_cases {i : Instr} {s t : State} (h : exec i s = .next t) :
    t.SameRepository s ∨
    (∃ ts r, i = .edge ts ∧ r ∈ results ts (classify ts s.lastEdge) (s.setLastEdge ts) ∧
      s.proto.getLsbD 7 = false ∧ t.SameRepository (s.publish r)) ∨
    (i = .read ∧ t.SameRepository s.clearNew) ∨
    (i = .reset ∧ t.SameRepository s.resetRegisters) := by
  cases i with
  | edge ts =>
    obtain ⟨-, ⟨-, rfl⟩ | ⟨hgate, rfl⟩⟩ := execEdge_next.1 h
    · exact .inl ⟨rfl, rfl, rfl⟩
    · obtain e | ⟨r, rest, hresults, -, e⟩ := acceptEdge_cases ts s <;> rw [e]
      · exact .inl ⟨rfl, rfl, rfl⟩
      · obtain ⟨hnew, -⟩ := dropsEdge_eq_false_iff.1 hgate
        exact .inr (.inl ⟨ts, r, rfl, hresults ▸ List.mem_cons_self, hnew, rfl, rfl, rfl⟩)
  | avail =>
    obtain ⟨-, rfl⟩ := execAvail_next.1 h
    exact .inl ⟨rfl, rfl, rfl⟩
  | read =>
    obtain ⟨-, rfl⟩ := execRead_next.1 h
    exact .inr (.inr (.inl ⟨rfl, rfl, rfl, rfl⟩))
  | send sel a c =>
    obtain ⟨-, ⟨-, rfl⟩ | ⟨-, -, rfl⟩ | ⟨-, tx, -, rfl⟩⟩ := execSend_next.1 h <;> exact .inl ⟨rfl, rfl, rfl⟩
  | txdone =>
    obtain ⟨-, ⟨-, rfl⟩ | ⟨-, rfl⟩⟩ := execTxdone_next.1 h <;> exact .inl ⟨rfl, rfl, rfl⟩
  | reset =>
    obtain ⟨-, rfl⟩ := execReset_next.1 h
    exact .inr (.inr (.inr ⟨rfl, rfl, rfl, rfl⟩))

/-! ### The clearing of NEW, and no tearing (R183, R184) -/

/-- Settles O34: an operation that leaves the repository leaves NEW, and a publication finds NEW at 0. -/
theorem onlyReadAndResetClearNew : Obligations.OnlyReadAndResetClearNew := by
  intro i s t h hset hcleared
  obtain ⟨hproto, -, -⟩ | ⟨ts, r, -, -, hnew, -⟩ | ⟨hread, -⟩ | ⟨hreset, -⟩ := exec_repository_cases h
  · rw [hproto, hset] at hcleared
    cases hcleared
  · rw [hset] at hnew
    cases hnew
  · exact .inl hread
  · exact .inr hreset

/-- Settles O35: clearing NEW keeps the triple, and a publication or a RESET writes all of it. -/
theorem repositoryNeverTears : Obligations.RepositoryNeverTears := by
  intro i s t h
  obtain ⟨hproto, haddr, hcmd⟩ | ⟨ts, r, hi, hr, hnew, hproto, haddr, hcmd⟩ | ⟨-, hproto, haddr, hcmd⟩ |
    ⟨hi, hproto, haddr, hcmd⟩ := exec_repository_cases h
  · exact .inl ⟨congrArg _ hproto, haddr, hcmd⟩
  · refine .inr (.inl ⟨ts, r, hi, hr, hnew, ?_, ?_, haddr, hcmd⟩) <;> rw [hproto]
    · exact isNew_publishedProto r.tag
    · exact tag_publishedProto r.tag
  · exact .inl ⟨hproto ▸ tag_clearNew s, haddr, hcmd⟩
  · exact .inr (.inr ⟨hi, hproto, haddr, hcmd⟩)

end Sys2Proof.Machine

/-! PROOFS. The transmitter (44_transmit.md): the envelope of each selector (R190 to R197), its shape and length (R191, R198), SEND and TX_DONE (R190, R203), and the waveform on IR_OUT (R199 to R202). -/

namespace Sys2Proof.Machine

/-! ### Which selectors have an envelope (R84, R190) -/

theorem envelope_code (c : Config) (tag : Tag) (a : BitVec 16) (cmd : BitVec 32) :
    envelope c tag.code a cmd = envelopeOfTag c a cmd tag := by
  rw [envelope, ofCode_code, Option.bind_some]

theorem exists_envelopeOfTag (c : Config) (a : BitVec 16) (cmd : BitVec 32) {tag : Tag} (hno : tag ≠ .noProtocol)
    (huser : tag ≠ .user) : ∃ tx, envelopeOfTag c a cmd tag = some tx := by
  cases tag with
  | noProtocol => exact absurd rfl hno
  | user => exact absurd rfl huser
  | _ => exact ⟨_, rfl⟩

/-- Every envelope is a full frame of some bits or the repeat code (R192, R195). -/
theorem envelope_cases {c : Config} {sel : BitVec 7} {a : BitVec 16} {cmd : BitVec 32} {tx : Transmission}
    (h : envelope c sel a cmd = some tx) : (∃ p bits, tx = frame c p bits) ∨ tx = repeatFrame c := by
  obtain ⟨tag, -, htx⟩ := Option.bind_eq_some_iff.1 h
  cases tag with
  | noProtocol => cases htx
  | user => cases htx
  | necRepeat => exact .inr (Option.some.inj htx).symm
  | _ => exact .inl ⟨_, _, (Option.some.inj htx).symm⟩

/-- The reserved numbers of R84 name no tag. -/
theorem ofCode_of_reserved : ∀ {sel : BitVec 7}, 0x0A#7 ≤ sel → Tag.ofCode sel = none := by
  decide

theorem envelope_of_unsupported {sel : BitVec 7} (h : sel = 0x00#7 ∨ sel = 0x01#7 ∨ 0x0A#7 ≤ sel) (c : Config)
    (a : BitVec 16) (cmd : BitVec 32) : envelope c sel a cmd = none := by
  obtain rfl | rfl | hreserved := h
  · exact envelope_code c .noProtocol a cmd
  · exact envelope_code c .user a cmd
  · rw [envelope, ofCode_of_reserved hreserved, Option.bind_none]

/-! ### SEND and TX_DONE (R190, R203, R222) -/

/-- Settles O36: a tag other than the two without a timing table has an envelope, and the idle SEND starts it. -/
theorem sendEmitsTheEnvelope : Obligations.SendEmitsTheEnvelope := by
  intro s tag a c hfault hidle hno huser
  obtain ⟨tx, htx⟩ := exists_envelopeOfTag s.config a c hno huser
  rw [← envelope_code] at htx
  exact ⟨tx, htx, execSend_next.2 ⟨hfault, .inr (.inr ⟨hidle, tx, htx, rfl⟩)⟩⟩

/-- Settles O37: an unsupported selector has no envelope, and the idle SEND records the fault. -/
theorem unsupportedSendSetsFault : Obligations.UnsupportedSendSetsFault := by
  intro s sel a c hfault hidle hsel
  exact ⟨execSend_next.2 ⟨hfault, .inr (.inl ⟨hidle, envelope_of_unsupported hsel s.config a c, rfl⟩)⟩, rfl⟩

/-- Settles O39: the busy case of TX_DONE. -/
theorem txDoneEndsTheTransmission : Obligations.TxDoneEndsTheTransmission :=
  fun _ hfault hbusy => execTxdone_next.2 ⟨hfault, .inl ⟨hbusy, rfl⟩⟩

/-! ### From mark to mark (R191) -/

/-- A list of segments that starts and ends with a mark and alternates (R191). -/
def MarkToMark (segments : List Segment) : Prop :=
  segments.head?.map Segment.level = some .mark ∧ segments.getLast?.map Segment.level = some .mark ∧
    alternates segments = true

theorem markToMark_mark (length : Duration) : MarkToMark [⟨.mark, length⟩] :=
  ⟨rfl, rfl, rfl⟩

theorem markToMark_mark_space {segments : List Segment} (h : MarkToMark segments) (mark space : Duration) :
    MarkToMark (⟨.mark, mark⟩ :: ⟨.space, space⟩ :: segments) := by
  obtain ⟨hhead, hlast, halt⟩ := h
  cases segments with
  | nil => cases hhead
  | cons g rest =>
    have hg : g.level = .mark := Option.some.inj hhead
    refine ⟨rfl, ?_, ?_⟩
    · rw [List.getLast?_cons_cons, List.getLast?_cons_cons]
      exact hlast
    · simp [alternates, hg, halt]

/-- The mark and the space of a bit, whichever of the two carries its value (R110, R192). -/
theorem cell_eq (c : Config) (p : Proto) (b : Bool) :
    ∃ mark space, cell c p b = [⟨.mark, mark⟩, ⟨.space, space⟩] := by
  cases p <;> exact ⟨_, _, rfl⟩

theorem markToMark_cells (c : Config) (p : Proto) (bits : List Bool) (trail : Duration) :
    MarkToMark (bits.flatMap (cell c p) ++ [⟨.mark, trail⟩]) := by
  induction bits with
  | nil => exact markToMark_mark trail
  | cons b bits ih =>
    obtain ⟨mark, space, hcell⟩ := cell_eq c p b
    rw [List.flatMap_cons, hcell]
    exact markToMark_mark_space ih mark space

/-- Settles O40: the lead, each bit's cell and the repeat space put a mark and a space before a list that is already from mark to mark. -/
theorem envelopeAlternatesFromMarkToMark : Obligations.EnvelopeAlternatesFromMarkToMark := by
  intro c sel a cmd tx h
  obtain ⟨p, bits, rfl⟩ | rfl := envelope_cases h
  · exact markToMark_mark_space (markToMark_cells c p bits (c.trail p)) _ _
  · exact markToMark_mark_space (markToMark_mark c.trailNec) _ _

/-! ### The bits of a field (R194 to R197) -/

@[simp] theorem length_bitsFrom {n : Nat} (x : BitVec n) (i len : Nat) : (bitsFrom x i len).length = len := by
  rw [bitsFrom, List.length_map, List.length_range']

/-- A bit of the list is the bit of the field, counted from the field's start. -/
theorem getElem?_bitsFrom {n : Nat} (x : BitVec n) (i : Nat) {len j : Nat} (hj : j < len) :
    (bitsFrom x i len)[j]? = some (x.getLsbD (i + j)) := by
  simp [bitsFrom, hj]

theorem bitsFrom_not {n : Nat} (x : BitVec n) {i len : Nat} (h : i + len ≤ n) :
    bitsFrom (~~~x) i len = (bitsFrom x i len).map not := by
  rw [bitsFrom, bitsFrom, List.map_map]
  refine List.map_congr_left fun k hk => ?_
  have hlt : k < n := Nat.lt_of_lt_of_le (List.mem_range'_1.1 hk).2 h
  simp [hlt]

theorem bitsFrom_lowField {n : Nat} (x : BitVec n) (len : Nat) :
    bitsFrom (x.extractLsb' 0 len) 0 len = bitsFrom x 0 len := by
  refine List.map_congr_left fun k hk => ?_
  have hlt : k < len := by simpa using (List.mem_range'_1.1 hk).2
  simp [hlt]

/-- The complement byte of R194 holds the command's bits complemented. -/
theorem necBits_eq (a : BitVec 16) (cmd : BitVec 32) :
    necBits a cmd = bitsFrom a 0 16 ++ bitsFrom cmd 0 8 ++ (bitsFrom cmd 0 8).map not := by
  rw [necBits, bitsFrom_not _ (Nat.le_refl 8), bitsFrom_lowField]

/-- A field's bits depend only on what a mask that covers the field keeps. -/
theorem bitsFrom_congr {n : Nat} {x y mask : BitVec n} (h : x &&& mask = y &&& mask) {i len : Nat}
    (hmask : ∀ k ∈ List.range' i len, mask.getLsbD k = true) : bitsFrom x i len = bitsFrom y i len := by
  refine List.map_congr_left fun k hk => ?_
  have hk' := congrArg (·.getLsbD k) h
  simpa [hmask k hk] using hk'

/-- Settles O42: the bit list of each protocol reads only the bits under its masks; the NEC family's complement byte repeats the command's bits. -/
theorem envelopeIgnoresBitsBeyondTheProtocol : Obligations.EnvelopeIgnoresBitsBeyondTheProtocol := by
  intro cfg a a' c c'
  have nec : envelope cfg 0x02#7 a c = some (frame cfg .nec (necBits a c)) := envelope_code cfg .nec a c
  refine ⟨rfl, fun hc => ?_, rfl, fun hc => ?_, fun hc ha => ?_, fun hc ha => ?_, fun hc ha => ?_⟩
  · have bits : necBits a c = necBits a c' := by
      rw [necBits_eq, necBits_eq, bitsFrom_congr hc (by decide)]
    exact congrArg (fun bits => some (frame cfg .nec bits)) bits
  · have bits : sony8Bits c = sony8Bits c' := bitsFrom_congr hc (by decide)
    exact congrArg (fun bits => some (frame cfg .sony bits)) bits
  · have bits : sony12Bits a c = sony12Bits a' c' := by
      rw [sony12Bits, sony12Bits, bitsFrom_congr hc (by decide), bitsFrom_congr ha (by decide)]
    exact congrArg (fun bits => some (frame cfg .sony bits)) bits
  · have bits : sony15Bits a c = sony15Bits a' c' := by
      rw [sony15Bits, sony15Bits, bitsFrom_congr hc (by decide), bitsFrom_congr ha (by decide)]
    exact congrArg (fun bits => some (frame cfg .sony bits)) bits
  · have bits : sony20Bits a c = sony20Bits a' c' := by
      rw [sony20Bits, sony20Bits, bitsFrom_congr hc (i := 0) (by decide), bitsFrom_congr hc (i := 7) (by decide),
        bitsFrom_congr ha (by decide)]
    exact congrArg (fun bits => some (frame cfg .sony bits)) bits

/-! ### Segment count and length (R198) -/

/-- The value-carrying half of a bit (R112, R192). -/
def valueOf (t : Timing) (b : Bool) : Duration := if b then t.one else t.zero

/-- The cells of a frame's bits, in microseconds: per bit its half without a value and its half with one. -/
theorem sum_cells (c : Config) (p : Proto) (bits : List Bool) :
    ((bits.flatMap (cell c p)).map fun g => g.length.toNat).sum =
      bits.length * (c.timing p).half.nominal.toNat + bits.count false * (c.timing p).zero.toNat +
        bits.count true * (c.timing p).one.toNat := by
  induction bits with
  | nil => simp
  | cons b bits ih =>
    have hcell : ((cell c p b).map fun g => g.length.toNat).sum =
        (c.timing p).half.nominal.toNat + (valueOf (c.timing p) b).toNat := by
      cases p <;> simp [cell, Proto.kind, valueOf, Nat.add_comm]
    rw [List.flatMap_cons, List.map_append, List.sum_append, ih, hcell]
    cases b <;> simp [valueOf, Nat.add_mul] <;> omega

theorem length_cells (c : Config) (p : Proto) (bits : List Bool) :
    (bits.flatMap (cell c p)).length = 2 * bits.length := by
  induction bits with
  | nil => rfl
  | cons b bits ih =>
    obtain ⟨mark, space, hcell⟩ := cell_eq c p b
    rw [List.flatMap_cons, hcell, List.length_append, ih, List.length_cons]
    simp only [List.length_cons, List.length_nil]
    omega

theorem length_frame (c : Config) (p : Proto) (bits : List Bool) :
    (frame c p bits).segments.length = 2 * bits.length + 3 := by
  simp only [frame, List.length_append, length_cells, List.length_cons, List.length_nil]
  omega

/-- The length of a full frame, by the number of its bits and of its 1 bits. -/
theorem duration_frame (c : Config) (p : Proto) (bits : List Bool) :
    (frame c p bits).duration =
      (c.timing p).leadMark.nominal.toNat + (c.timing p).leadSpace.nominal.toNat + (c.trail p).toNat +
        bits.length * (c.timing p).half.nominal.toNat +
        (bits.length - bits.count true) * (c.timing p).zero.toNat + bits.count true * (c.timing p).one.toNat := by
  have hcount : bits.count false = bits.length - bits.count true := by
    have := List.count_not_add_count bits true
    simp only [Bool.not_true] at this
    omega
  simp only [Transmission.duration, frame, List.map_append, List.sum_append, sum_cells, hcount, List.map_cons,
    List.map_nil, List.sum_cons, List.sum_nil]
  omega

/-- A command and its complement hold eight 1 bits between them. -/
theorem count_necBits (a : BitVec 16) (cmd : BitVec 32) : (necBits a cmd).count true = popcount a + 8 := by
  have hcomplement : ((bitsFrom cmd 0 8).map not).count true = (bitsFrom cmd 0 8).count false :=
    List.count_map_of_injective (bitsFrom cmd 0 8) not Bool.not_injective false
  have hsum := List.count_not_add_count (bitsFrom cmd 0 8) true
  rw [length_bitsFrom, Bool.not_true] at hsum
  rw [necBits_eq, List.count_append, List.count_append, hcomplement, popcount]
  omega

@[simp] theorem length_necBits (a : BitVec 16) (cmd : BitVec 32) : (necBits a cmd).length = 32 := by
  simp [necBits]

@[simp] theorem length_panBits (a : BitVec 16) (cmd : BitVec 32) : (panBits a cmd).length = 48 := by
  simp [panBits]

@[simp] theorem length_sony8Bits (cmd : BitVec 32) : (sony8Bits cmd).length = 8 := by
  simp [sony8Bits]

@[simp] theorem length_sony12Bits (a : BitVec 16) (cmd : BitVec 32) : (sony12Bits a cmd).length = 12 := by
  simp [sony12Bits]

@[simp] theorem length_sony15Bits (a : BitVec 16) (cmd : BitVec 32) : (sony15Bits a cmd).length = 15 := by
  simp [sony15Bits]

@[simp] theorem length_sony20Bits (a : BitVec 16) (cmd : BitVec 32) : (sony20Bits a cmd).length = 20 := by
  simp [sony20Bits]

section
variable (e : BitVec 16)

theorem duration_nec (a : BitVec 16) (cmd : BitVec 32) :
    (frame (Config.standard e) .nec (necBits a cmd)).duration = 58940 + 1130 * popcount a := by
  have hle := List.count_le_length (a := true) (l := necBits a cmd)
  have hduration : (frame (Config.standard e) .nec (necBits a cmd)).duration =
      9000 + 4500 + 560 + (necBits a cmd).length * 560 +
        ((necBits a cmd).length - (necBits a cmd).count true) * 560 + (necBits a cmd).count true * 1690 :=
    duration_frame ..
  rw [count_necBits, length_necBits] at *
  omega

theorem duration_pan (a : BitVec 16) (cmd : BitVec 32) :
    (frame (Config.standard e) .pan (panBits a cmd)).duration = 47088 + 864 * (popcount a + popcount cmd) := by
  have hle := List.count_le_length (a := true) (l := panBits a cmd)
  have hones : (panBits a cmd).count true = popcount a + popcount cmd := List.count_append
  have hduration : (frame (Config.standard e) .pan (panBits a cmd)).duration =
      3456 + 1728 + 432 + (panBits a cmd).length * 432 +
        ((panBits a cmd).length - (panBits a cmd).count true) * 432 + (panBits a cmd).count true * 1296 :=
    duration_frame ..
  rw [length_panBits] at *
  omega

theorem duration_repeatFrame : (repeatFrame (Config.standard e)).duration = 11810 := by
  simp [Transmission.duration, repeatFrame, Config.standard, Timing.around, Pulse.around]

theorem duration_sony (bits : List Bool) :
    (frame (Config.standard e) .sony bits).duration = 3600 + 1200 * bits.length + 600 * bits.count true := by
  have hle := List.count_le_length (a := true) (l := bits)
  have hduration : (frame (Config.standard e) .sony bits).duration =
      2400 + 600 + 600 + bits.length * 600 + (bits.length - bits.count true) * 600 + bits.count true * 1200 :=
    duration_frame ..
  omega

end

/-- Settles O41: the counts of bits and of 1 bits of each protocol's frame, put into the length of a full frame. -/
theorem envelopeSegmentCountAndLength : Obligations.EnvelopeSegmentCountAndLength := by
  intro e a c
  have nec : (frame (Config.standard e) .nec (necBits a c)).segments.length = 67 := by
    rw [length_frame, length_necBits]
  have pan : (frame (Config.standard e) .pan (panBits a c)).segments.length = 99 := by
    rw [length_frame, length_panBits]
  have sony : ∀ {n bits}, bits.length = n → (frame (Config.standard e) .sony bits).segments.length = 2 * n + 3 ∧
      (frame (Config.standard e) .sony bits).duration = 3600 + 1200 * n + 600 * bits.count true := by
    rintro _ bits rfl
    exact ⟨length_frame .., duration_sony e bits⟩
  refine ⟨fun sel hsel => ?_, ⟨_, envelope_code _ .necRepeat a c, rfl, duration_repeatFrame e⟩,
    ⟨_, envelope_code _ .panasonic a c, pan, duration_pan e a c⟩, fun x hx => ?_⟩
  · have henv : envelope (Config.standard e) sel a c = some (frame (Config.standard e) .nec (necBits a c)) := by
      obtain rfl | rfl := by simpa using hsel
      · exact envelope_code _ .nec a c
      · exact envelope_code _ .necExtended a c
    exact ⟨_, henv, nec, duration_nec e a c⟩
  · simp only [List.mem_cons, List.not_mem_nil, or_false] at hx
    obtain rfl | rfl | rfl | rfl := hx
    · exact ⟨_, envelope_code _ .sony8 a c, sony (length_sony8Bits c)⟩
    · exact ⟨_, envelope_code _ .sony12 a c, sony (length_sony12Bits a c)⟩
    · exact ⟨_, envelope_code _ .sony15 a c, sony (length_sony15Bits a c)⟩
    · exact ⟨_, envelope_code _ .sony20 a c, sony (length_sony20Bits a c)⟩

/-! ### The waveform (R199 to R202) -/

/-- After whole segments have passed, the pin carries what the remaining ones say. -/
theorem levelIn_append (c : Config) (p : Proto) (before after : List Segment) (ns : Nat) :
    levelIn c p (before ++ after) (1000 * (before.map fun g => g.length.toNat).sum + ns) = levelIn c p after ns := by
  induction before with
  | nil => simp
  | cons g before ih =>
    rw [List.map_cons, List.sum_cons, Nat.mul_add, Nat.add_assoc, List.cons_append, levelIn, if_neg (by omega),
      Nat.add_sub_cancel_left]
    exact ih

/-- Settles O47: the segments before the one asked for have passed, and at the end all of them have. -/
theorem waveformOfAnEnvelope : Obligations.WaveformOfAnEnvelope := by
  intro s t hout
  have hlevel : ∀ ns, s.irLevel ns = levelIn s.config t.proto t.segments ns := fun ns => by
    rw [State.irLevel, hout]
  refine ⟨fun i g off hg hoff => ?_, fun ns hns => ?_⟩
  · have hsplit : t.segments = t.segments.take i ++ g :: t.segments.drop (i + 1) := by
      obtain ⟨hi, rfl⟩ := List.getElem?_eq_some_iff.1 hg
      rw [List.getElem_cons_drop, List.take_append_drop]
    calc s.irLevel (1000 * t.startOf i + off)
        = levelIn s.config t.proto (g :: t.segments.drop (i + 1)) off := by
          rw [hlevel, Transmission.startOf, ← levelIn_append s.config t.proto (t.segments.take i) (g :: _) off,
            ← hsplit]
      _ = _ := by
          rw [levelIn, if_pos hoff]
          cases g.level <;> rfl
  · obtain ⟨rest, rfl⟩ := Nat.exists_eq_add_of_le hns
    have hend := levelIn_append s.config t.proto t.segments [] rest
    rw [List.append_nil] at hend
    exact (hlevel _).trans hend

/-- Settles O48: the three periods, and the duty and the pulses as divisions by them (R201). -/
theorem carrierConstantsWithTheDefaults : Obligations.CarrierConstantsWithTheDefaults := by
  intro e c
  have nec : carrierPeriod c .nec = 1000000000 / 38000 := rfl
  have pan : carrierPeriod c .pan = 1000000000 / 37000 := rfl
  have sony : carrierPeriod c .sony = 1000000000 / 40000 := rfl
  have high : ∀ p, carrierHigh c p = carrierPeriod c p * 1 / 2 := fun _ => rfl
  simp only [high, markPulses, nec, pan, sony]
  decide

end Sys2Proof.Machine

/-! PROOFS. The round trips (R204): an EDGE that no enabled decoder reports on, a run of such edges up to a completing one, the bits that a frame puts into a decoder of its own protocol, the silence of the other protocols' decoders, and the five statements. -/

namespace Sys2Proof.Machine

/-! ### Durations that a decoder hears without a report (R117) -/

/-- A decoder goes from one state to another over a list of durations, and reports nothing on the way. -/
inductive Silent {n : Nat} (kind : Kind) (t : Timing) (rs : Option Window) :
    List Duration → Decoder n → Decoder n → Prop
  | nil (x : Decoder n) : Silent kind t rs [] x x
  | cons {d : Duration} {ds : List Duration} {x y z : Decoder n} (step : fsmStep kind t rs d x = (y, .nothing))
      (rest : Silent kind t rs ds y z) : Silent kind t rs (d :: ds) x z

section
variable {n : Nat} {kind : Kind} {t : Timing} {rs : Option Window} {d : Duration} {ds es : List Duration}
  {x y z : Decoder n}

theorem silent_singleton (step : fsmStep kind t rs d x = (y, .nothing)) : Silent kind t rs [d] x y :=
  .cons step (.nil y)

theorem Silent.append (h : Silent kind t rs ds x y) (h' : Silent kind t rs es y z) :
    Silent kind t rs (ds ++ es) x z := by
  induction h with
  | nil => exact h'
  | cons step _ ih => exact .cons step (ih h')

theorem Silent.head (h : Silent kind t rs (d :: ds) x z) : Silent kind t rs [d] x (fsmStep kind t rs d x).1 := by
  cases h with
  | cons step _ => exact silent_singleton (by rw [step])

theorem Silent.tail (h : Silent kind t rs (d :: ds) x z) : Silent kind t rs ds (fsmStep kind t rs d x).1 z := by
  cases h with
  | cons step rest => rwa [step]

theorem Silent.step (h : Silent kind t rs [d] x y) : fsmStep kind t rs d x = (y, .nothing) := by
  cases h with
  | cons step rest => cases rest; exact step

end

/-! ### Edges that no enabled decoder reports on (R160 to R165) -/

/-- States for the six decoders. -/
structure Bank where
  nec : Decoder 32
  pan : Decoder 48
  sony8 : Decoder 8
  sony12 : Decoder 12
  sony15 : Decoder 15
  sony20 : Decoder 20

/-- The states the six decoders are in. -/
def State.bank (s : State) : Bank :=
  ⟨s.nec, s.pan, s.sony8, s.sony12, s.sony15, s.sony20⟩

/-- Every enabled decoder hears the durations without a report; a disabled one hears nothing (R163). -/
structure Bank.Hears (c : Config) (ds : List Duration) (b b' : Bank) : Prop where
  nec : c.necEnabled = true → Silent .dist c.nec (some c.necRepeatSpace.window) ds b.nec b'.nec
  pan : c.tagEnabled .panasonic = true → Silent .dist c.pan none ds b.pan b'.pan
  sony8 : c.tagEnabled .sony8 = true → Silent .width c.sony none ds b.sony8 b'.sony8
  sony12 : c.tagEnabled .sony12 = true → Silent .width c.sony none ds b.sony12 b'.sony12
  sony15 : c.tagEnabled .sony15 = true → Silent .width c.sony none ds b.sony15 b'.sony15
  sony20 : c.tagEnabled .sony20 = true → Silent .width c.sony none ds b.sony20 b'.sony20

/-- A decoder moves to a state only if it is enabled (R33). -/
def Decoder.move {n : Nat} (x : Decoder n) (enabled : Bool) (y : Decoder n) : Decoder n :=
  bif enabled then y else x

@[simp] theorem move_enabled {n : Nat} (x y : Decoder n) : x.move true y = y := rfl

@[simp] theorem move_disabled {n : Nat} (x y : Decoder n) : x.move false y = x := rfl

@[simp] theorem move_move {n : Nat} (x y z : Decoder n) (enabled : Bool) :
    (x.move enabled y).move enabled z = x.move enabled z := by
  cases enabled <;> rfl

/-- The state after an edge at `now` without a report: the enabled decoders have moved, and LAST_EDGE. -/
def State.heard (b : Bank) (now : Time) (s : State) : State :=
  { s with
    lastEdge := now
    nec := s.nec.move s.config.necEnabled b.nec
    pan := s.pan.move (s.config.tagEnabled .panasonic) b.pan
    sony8 := s.sony8.move (s.config.tagEnabled .sony8) b.sony8
    sony12 := s.sony12.move (s.config.tagEnabled .sony12) b.sony12
    sony15 := s.sony15.move (s.config.tagEnabled .sony15) b.sony15
    sony20 := s.sony20.move (s.config.tagEnabled .sony20) b.sony20 }

/-- Where each decoder goes on one duration, if it is enabled. -/
def Bank.step (c : Config) (d : Duration) (b : Bank) : Bank where
  nec := (fsmStep .dist c.nec (some c.necRepeatSpace.window) d b.nec).1
  pan := (fsmStep .dist c.pan none d b.pan).1
  sony8 := (fsmStep .width c.sony none d b.sony8).1
  sony12 := (fsmStep .width c.sony none d b.sony12).1
  sony15 := (fsmStep .width c.sony none d b.sony15).1
  sony20 := (fsmStep .width c.sony none d b.sony20).1

section
variable {c : Config} {d : Duration} {ds : List Duration} {b b' : Bank} {s : State}

theorem Bank.Hears.head (h : Bank.Hears c (d :: ds) b b') : Bank.Hears c [d] b (b.step c d) where
  nec hen := (h.nec hen).head
  pan hen := (h.pan hen).head
  sony8 hen := (h.sony8 hen).head
  sony12 hen := (h.sony12 hen).head
  sony15 hen := (h.sony15 hen).head
  sony20 hen := (h.sony20 hen).head

theorem Bank.Hears.tail (h : Bank.Hears c (d :: ds) b b') : Bank.Hears c ds (b.step c d) b' where
  nec hen := (h.nec hen).tail
  pan hen := (h.pan hen).tail
  sony8 hen := (h.sony8 hen).tail
  sony12 hen := (h.sony12 hen).tail
  sony15 hen := (h.sony15 hen).tail
  sony20 hen := (h.sony20 hen).tail

/-- What the enabled decoders hear next is heard from the states they were left in. -/
theorem Bank.Hears.of_heard (h : Bank.Hears s.config ds b b') (now : Time) :
    Bank.Hears s.config ds (s.heard b now).bank b' where
  nec hen := by simpa [State.bank, State.heard, hen] using h.nec hen
  pan hen := by simpa [State.bank, State.heard, hen] using h.pan hen
  sony8 hen := by simpa [State.bank, State.heard, hen] using h.sony8 hen
  sony12 hen := by simpa [State.bank, State.heard, hen] using h.sony12 hen
  sony15 hen := by simpa [State.bank, State.heard, hen] using h.sony15 hen
  sony20 hen := by simpa [State.bank, State.heard, hen] using h.sony20 hen

/-- Only the last of two moves is seen. -/
theorem heard_heard (s : State) (b b' : Bank) (now now' : Time) :
    (s.heard b now).heard b' now' = s.heard b' now' := by
  simp only [State.heard, move_move]

theorem stepNec_of_silent {now : Time} {x y : Decoder 32} {rep : RepeatMemory}
    (h : c.necEnabled = true → Silent .dist c.nec (some c.necRepeatSpace.window) [d] x y) :
    stepNec c now d x rep = (x.move c.necEnabled y, rep, none) := by
  obtain ⟨hen, e⟩ | ⟨hen, e⟩ := stepNec_cases c now d x rep
  · simp [hen, e]
  · simp [hen, e, (h hen).step, necResult]

theorem stepPlain_of_silent {n : Nat} {p : Proto} {tag : Tag} {assemble : BitVec n → Decoded} {x y : Decoder n}
    (h : c.tagEnabled tag = true → Silent p.kind (c.timing p) none [d] x y) :
    stepPlain c p tag assemble d x = (x.move (c.tagEnabled tag) y, none) := by
  obtain ⟨hen, e⟩ | ⟨hen, e⟩ := stepPlain_cases c p tag assemble d x
  · simp [hen, e]
  · simp [hen, e, (h hen).step, plainResult]

/-- An accepted EDGE on which no enabled decoder reports moves the decoders and LAST_EDGE alone. -/
theorem exec_edge_of_hears {now : Time} (hfault : s.fault = none) (hnew : s.proto.getLsbD 7 = false)
    (hidle : s.txBusy = false) (h : Bank.Hears s.config [classify now s.lastEdge] s.bank b) :
    exec (.edge now) s = .next (s.heard b now) := by
  have nec := stepNec_of_silent (now := now) (rep := s.rep) h.nec
  have pan := stepPlain_of_silent (p := .pan) (assemble := assemblePan) h.pan
  have sony8 := stepPlain_of_silent (p := .sony) (assemble := assembleSony8) h.sony8
  have sony12 := stepPlain_of_silent (p := .sony) (assemble := assembleSony12) h.sony12
  have sony15 := stepPlain_of_silent (p := .sony) (assemble := assembleSony15) h.sony15
  have sony20 := stepPlain_of_silent (p := .sony) (assemble := assembleSony20) h.sony20
  simp only [State.bank] at nec pan sony8 sony12 sony15 sony20
  have hnone : (results now (classify now s.lastEdge) (s.setLastEdge now)).head? = none := by
    simp [results_head?, nec, pan, sony8, sony12, sony15, sony20]
  have hmoved : fannedOut now s = s.heard b now := by
    simp [fannedOut, fanOut, State.heard, State.setLastEdge, nec, pan, sony8, sony12, sony15, sony20]
  rw [exec_edge_of_accepted hfault hnew hidle, acceptEdge_of_no_result hnone, hmoved]

end

/-! ### A run of edges up to a completing one (R90, R160 to R169) -/

/-- The sum of a list of durations. -/
def lengthSum (ds : List Duration) : Nat := (ds.map BitVec.toNat).sum

/-- The instant at which durations that begin at `t` have passed (R11). -/
def timeAfter (t : Time) (ds : List Duration) : Time := t + BitVec.ofNat 32 (lengthSum ds)

@[simp] theorem lengthSum_append (ds es : List Duration) : lengthSum (ds ++ es) = lengthSum ds + lengthSum es := by
  simp [lengthSum]

theorem timeAfter_nil (t : Time) : timeAfter t [] = t := BitVec.add_zero t

theorem timeAfter_cons (t : Time) (d : Duration) (ds : List Duration) :
    timeAfter t (d :: ds) = timeAfter (t + d.setWidth 32) ds := by
  have hd : d.setWidth 32 = BitVec.ofNat 32 d.toNat := (BitVec.ofNat_toNat 32 d).symm
  simp only [timeAfter, lengthSum, List.map_cons, List.sum_cons, BitVec.ofNat_add, hd, BitVec.add_assoc]

theorem duration_eq_lengthSum (tx : Transmission) : tx.duration = lengthSum (tx.segments.map Segment.length) := by
  rw [lengthSum, List.map_map]
  rfl

/-- An edge one duration after the last is classified as that duration: the longest one is the sentinel itself (R100). -/
theorem classify_add (t : Time) (d : Duration) : classify (t + d.setWidth 32) t = d := by
  apply BitVec.eq_of_toNat_eq
  have hd : (d.setWidth 32).toNat = d.toNat := BitVec.toNat_setWidth_of_le (by decide)
  have helapsed : (sub32 (t + d.setWidth 32) t).toNat = d.toNat := by
    rw [sub32, BitVec.add_comm, BitVec.add_sub_cancel, hd]
  have hlt := d.isLt
  rw [toNat_classify, helapsed]
  omega

/-- The edges of a list of durations that begins at `t`. -/
def edgesFrom (t : Time) (ds : List Duration) : List Instr :=
  (edgeTimes t (ds.map (BitVec.setWidth 32))).map Instr.edge

theorem edgesFrom_cons (t : Time) (d : Duration) (ds : List Duration) :
    edgesFrom t (d :: ds) = .edge t :: edgesFrom (t + d.setWidth 32) ds := rfl

/-- Every list of edges begins with one at its start. -/
theorem edgesFrom_eq_cons (t : Time) (ds : List Duration) :
    ∃ times : List Time, edgesFrom t ds = .edge t :: times.map .edge := by
  cases ds with
  | nil => exact ⟨[], rfl⟩
  | cons d ds => exact ⟨_, edgesFrom_cons t d ds⟩

theorem edges_eq_edgesFrom (tx : Transmission) (t : Time) :
    tx.edges t = edgesFrom t (tx.segments.map Segment.length) := by
  rw [edgesFrom, List.map_map]
  rfl

theorem execAll_cons_of_next {i : Instr} {s t : State} (h : exec i s = .next t) (is : List Instr) :
    execAll (i :: is) s = execAll is t := by
  rw [execAll, h]

/-- Edges that are heard without a report move the enabled decoders and LAST_EDGE, and the edges after them go on from there. -/
theorem execAll_of_hears {s : State} {b : Bank} {t : Time} {ds : List Duration} (d : Duration) (rest : List Duration)
    (hfault : s.fault = none) (hnew : s.proto.getLsbD 7 = false) (hidle : s.txBusy = false)
    (h : Bank.Hears s.config (classify t s.lastEdge :: ds) s.bank b) :
    execAll (edgesFrom t (ds ++ d :: rest)) s =
      execAll (edgesFrom (timeAfter t ds + d.setWidth 32) rest) (s.heard b (timeAfter t ds)) := by
  induction ds generalizing s t with
  | nil =>
    rw [List.nil_append, edgesFrom_cons, execAll_cons_of_next (exec_edge_of_hears hfault hnew hidle h), timeAfter_nil]
  | cons d' ds ih =>
    have first := exec_edge_of_hears hfault hnew hidle h.head
    have next := h.tail.of_heard t
    rw [← classify_add t d'] at next
    rw [List.cons_append, edgesFrom_cons, execAll_cons_of_next first,
      ih (s := s.heard _ t) hfault hnew hidle next, heard_heard, timeAfter_cons]

/-- An accepted EDGE whose first result passes the debounce publishes it over the fan-out. -/
theorem exec_edge_of_result {s : State} {now : Time} {d : Duration} {r : Decoded} (hfault : s.fault = none)
    (hnew : s.proto.getLsbD 7 = false) (hidle : s.txBusy = false) (hd : classify now s.lastEdge = d)
    (hresult : (results now d (s.setLastEdge now)).head? = some r) (hdebounce : s.config.debounce ≤ now - s.lastEvent) :
    exec (.edge now) s = .next ((fanOut now d (s.setLastEdge now)).publish r) := by
  subst hd
  rw [exec_edge_of_accepted hfault hnew hidle, acceptEdge_of_published hresult hdebounce, fannedOut]

/-- After a gap of at least 65535 µs, edges heard without a report up to one whose first result passes the debounce: it is published, and the edges after it are dropped (R166 to R169). -/
theorem execAll_edges_of_result {s : State} {tx : Transmission} {t0 now : Time} {ds rest : List Duration} {d : Duration}
    {b : Bank} {r : Decoded} (hfault : s.fault = none) (hnew : s.proto.getLsbD 7 = false) (hidle : s.txBusy = false)
    (hgap : 65535#32 ≤ t0 - s.lastEdge) (hlengths : tx.segments.map Segment.length = ds ++ d :: rest)
    (hnow : now = t0 + BitVec.ofNat 32 (tx.duration - lengthSum rest))
    (hhears : Bank.Hears s.config (sentinel :: ds) s.bank b)
    (hresult : (results now d (s.heard b now)).head? = some r) (hdebounce : s.config.debounce ≤ now - s.lastEvent) :
    execAll (tx.edges t0) s = .next ((fanOut now d (s.heard b now)).publish r) := by
  have htime : timeAfter t0 ds + d.setWidth 32 = now := by
    have hsum : tx.duration - lengthSum rest = lengthSum (ds ++ [d]) := by
      rw [duration_eq_lengthSum, hlengths, ← List.singleton_append, ← List.append_assoc, lengthSum_append,
        Nat.add_sub_cancel]
    rw [hnow, hsum]
    simp [timeAfter, lengthSum, BitVec.ofNat_add, BitVec.add_assoc]
  obtain ⟨times, htimes⟩ := edgesFrom_eq_cons now rest
  have hclassify : classify now (timeAfter t0 ds) = d := htime ▸ classify_add _ d
  have completed : exec (.edge now) (s.heard b (timeAfter t0 ds)) = .next ((fanOut now d (s.heard b now)).publish r) :=
    exec_edge_of_result hfault hnew hidle hclassify hresult hdebounce
  have hfirst : classify t0 s.lastEdge = sentinel := classify_of_le hgap
  rw [edges_eq_edgesFrom, hlengths, execAll_of_hears d rest hfault hnew hidle (hfirst.symm ▸ hhears), htime, htimes,
    execAll_cons_of_next completed]
  exact everyEdgeIsLostWhilePendingOrBusy _ times hfault (.inl (isNew_publishedProto r.tag))

/-! ### The bits of a frame in a buffer (R36, R119) -/

/-- A buffer that holds the given bits from bit 0 on, and zeros above them. -/
def bufferOf (n : Nat) (bits : List Bool) : BitVec n := (BitVec.ofBoolListLE bits).setWidth n

theorem getLsbD_bufferOf {n : Nat} (bits : List Bool) {i : Nat} (hi : i < n) :
    (bufferOf n bits).getLsbD i = bits.getD i false := by
  simp [bufferOf, hi, BitVec.getLsbD_ofBoolListLE]

theorem bufferOf_nil (n : Nat) : bufferOf n [] = 0#n := by
  apply BitVec.eq_of_getLsbD_eq
  intro i hi
  rw [getLsbD_bufferOf [] hi]
  simp

theorem writeBit_bufferOf {n : Nat} (bits : List Bool) (b : Bool) (h : bits.length < n) :
    writeBit (bufferOf n bits) bits.length b = bufferOf n (bits ++ [b]) := by
  apply BitVec.eq_of_getLsbD_eq
  intro i hi
  rw [getLsbD_writeBit, getLsbD_bufferOf _ hi, getLsbD_bufferOf _ hi]
  obtain hlt | rfl | hgt := Nat.lt_trichotomy i bits.length
  · simp [Nat.ne_of_lt hlt, hlt, List.getElem?_append_left]
  · simp [h]
  · have hlength : (bits ++ [b]).length ≤ i := by simpa using hgt
    simp [Nat.ne_of_gt hgt, List.getElem?_eq_none (Nat.le_of_lt hgt), List.getElem?_eq_none hlength]

/-- Where a field's bits stand in a buffer, that field of the buffer is the field they were taken from. -/
theorem extractLsb'_bufferOf {m n : Nat} {bits before after : List Bool} (x : BitVec m) (i start len : Nat)
    (hbits : bits = before ++ bitsFrom x i len ++ after) (hstart : before.length = start) (hfits : start + len ≤ n) :
    (bufferOf n bits).extractLsb' start len = x.extractLsb' i len := by
  subst hstart hbits
  apply BitVec.eq_of_getLsbD_eq
  intro j hj
  have hbit : (before ++ bitsFrom x i len ++ after)[before.length + j]? = some (x.getLsbD (i + j)) := by
    rw [List.append_assoc, List.getElem?_append_right (Nat.le_add_right _ _), Nat.add_sub_cancel_left,
      List.getElem?_append_left (by simpa using hj), getElem?_bitsFrom x i hj]
  simp only [BitVec.getLsbD_extractLsb', hj, decide_true, Bool.true_and]
  rw [getLsbD_bufferOf _ (by omega), List.getD_eq_getElem?_getD, hbit, Option.getD_some]

/-! ### A decoder that reads a frame of its own protocol (R121 to R129, R192) -/

/-- Every nominal length that the transmitter sends falls where a decoder with the same table expects it (R112, R118). -/
structure ReadsItself (t : Timing) : Prop where
  leadMark : t.leadMark.window.contains t.leadMark.nominal = true
  leadSpace : t.leadSpace.window.contains t.leadSpace.nominal = true
  half : t.half.window.contains t.half.nominal = true
  bit : ∀ b, bitval t (valueOf t b) = some b
  leadMark_lt : t.leadMark.nominal < t.timeout
  leadSpace_plain : t.leadSpace.nominal < t.timeout ∧ t.leadMark.window.contains t.leadSpace.nominal = false
  half_plain : t.half.nominal < t.timeout ∧ t.leadMark.window.contains t.half.nominal = false
  value_plain : ∀ b, valueOf t b < t.timeout ∧ t.leadMark.window.contains (valueOf t b) = false

/-- What a cell has before the half that carries its bit, and after it (R110). -/
def beforeValue (kind : Kind) (t : Timing) : List Duration :=
  match kind with
  | .dist => [t.half.nominal]
  | .width => []

@[inherit_doc beforeValue]
def afterValue (kind : Kind) (t : Timing) : List Duration :=
  match kind with
  | .dist => []
  | .width => [t.half.nominal]

/-- The state in which a decoder takes a bit, and the one it goes to (R127, R128). -/
def valueState : Kind → FsmState
  | .dist => .space
  | .width => .mark

@[inherit_doc valueState]
def onwardState : Kind → FsmState
  | .dist => .mark
  | .width => .space

/-- The durations of a frame's cells for the given bits. -/
def cellLengths (kind : Kind) (t : Timing) (bits : List Bool) : List Duration :=
  bits.flatMap fun b => beforeValue kind t ++ valueOf t b :: afterValue kind t

/-- The durations of a frame from its start to the half that carries the bit after the given ones. -/
def lengthsUpTo (kind : Kind) (t : Timing) (bits : List Bool) : List Duration :=
  t.leadMark.nominal :: t.leadSpace.nominal :: (cellLengths kind t bits ++ beforeValue kind t)

theorem frame_lengths (c : Config) (p : Proto) (bits : List Bool) (b : Bool) :
    (frame c p (bits ++ [b])).segments.map Segment.length =
      lengthsUpTo p.kind (c.timing p) bits ++
        valueOf (c.timing p) b :: (afterValue p.kind (c.timing p) ++ [c.trail p]) := by
  have hcell : ∀ v, (cell c p v).map Segment.length =
      beforeValue p.kind (c.timing p) ++ valueOf (c.timing p) v :: afterValue p.kind (c.timing p) :=
    fun v => by cases p <;> rfl
  simp [frame, lengthsUpTo, cellLengths, hcell, List.map_flatMap]

/-- A decoder that has taken the given bits. -/
def taken (n : Nat) (st : FsmState) (bits : List Bool) : Decoder n :=
  ⟨st, BitVec.ofNat 6 bits.length, bufferOf n bits⟩

section
variable {n : Nat} {kind : Kind} {t : Timing} {rs : Option Window} {bits : List Bool} {b : Bool}

/-- No timeout is above the sentinel, so the sentinel sends a decoder in any state to IDLE (R116, R120). -/
theorem fsmStep_sentinel (x : Decoder n) : fsmStep kind t rs sentinel x = (Decoder.idle, .nothing) :=
  fsmStep_of_timeout (Nat.le_of_lt_succ t.timeout.isLt)

theorem toNat_cnt_taken (st : FsmState) (h : bits.length < 64) : (taken n st bits).cnt.toNat = bits.length :=
  Nat.mod_eq_of_lt h

variable (ht : ReadsItself t)
include ht

/-- From any state, the sentinel, the lead mark and the lead space lead to the first cell. -/
theorem silent_lead (x : Decoder n) :
    Silent kind t rs [sentinel, t.leadMark.nominal, t.leadSpace.nominal] x (taken n .mark []) := by
  have space : fsmStep kind t rs t.leadSpace.nominal (⟨.lead, 0#6, 0#n⟩ : Decoder n) =
      (taken n .mark [], .nothing) := by
    obtain ⟨hto, hlm⟩ := ht.leadSpace_plain
    rw [fsmStep_of_lead hto hlm rfl, leadStep, if_pos ht.leadSpace, taken, bufferOf_nil]
    rfl
  exact .cons (fsmStep_sentinel x)
    (.cons (fsmStep_of_leadMark ht.leadMark_lt ht.leadMark) (silent_singleton space))

theorem silent_beforeValue :
    Silent kind t rs (beforeValue kind t) (taken n .mark bits) (taken n (valueState kind) bits) := by
  cases kind with
  | width => exact .nil _
  | dist =>
    obtain ⟨hto, hlm⟩ := ht.half_plain
    exact silent_singleton (by rw [fsmStep_dist_of_mark hto hlm rfl, halfStep, if_pos ht.half]; rfl)

theorem silent_afterValue :
    Silent kind t rs (afterValue kind t) (taken n (onwardState kind) bits) (taken n .mark bits) := by
  cases kind with
  | dist => exact .nil _
  | width =>
    obtain ⟨hto, hlm⟩ := ht.half_plain
    exact silent_singleton (by rw [fsmStep_width_of_space hto hlm rfl, halfStep, if_pos ht.half]; rfl)

theorem fsmStep_value : fsmStep kind t rs (valueOf t b) (taken n (valueState kind) bits) =
    takeBit t (valueOf t b) (onwardState kind) (taken n (valueState kind) bits) := by
  obtain ⟨hto, hlm⟩ := ht.value_plain b
  cases kind with
  | dist => exact fsmStep_dist_of_space hto hlm rfl
  | width => exact fsmStep_width_of_mark hto hlm rfl

theorem fsmStep_value_of_not_last (hn : n ≤ 48) (h : bits.length + 1 < n) :
    fsmStep kind t rs (valueOf t b) (taken n (valueState kind) bits) =
      (taken n (onwardState kind) (bits ++ [b]), .nothing) := by
  have hcnt := toNat_cnt_taken (n := n) (bits := bits) (valueState kind) (by omega)
  have hsucc := cnt_succ hn (x := taken n (valueState kind) bits) (by omega)
  have hnext : (taken n (valueState kind) bits).cnt + 1#6 = BitVec.ofNat 6 (bits ++ [b]).length := by
    rw [List.length_append, List.length_singleton, BitVec.ofNat_add]
    rfl
  rw [fsmStep_value ht, takeBit_of_not_last (ht.bit b) (by omega), hnext, hcnt]
  exact congrArg (fun buf => (Decoder.mk _ _ buf, _)) (writeBit_bufferOf bits b (by omega))

theorem fsmStep_value_of_last (hn : n ≤ 48) (h : bits.length + 1 = n) :
    fsmStep kind t rs (valueOf t b) (taken n (valueState kind) bits) =
      (Decoder.idle, .frame (bufferOf n (bits ++ [b]))) := by
  have hcnt := toNat_cnt_taken (n := n) (bits := bits) (valueState kind) (by omega)
  have hsucc := cnt_succ hn (x := taken n (valueState kind) bits) (by omega)
  rw [fsmStep_value ht, takeBit_of_last (ht.bit b) (by omega), hcnt]
  exact congrArg (fun buf => (_, FsmReport.frame buf)) (writeBit_bufferOf bits b (by omega))

theorem silent_cells (hn : n ≤ 48) (h : bits.length < n) :
    Silent kind t rs (cellLengths kind t bits) (taken n .mark []) (taken n .mark bits) := by
  induction bits using List.reverseRecOn with
  | nil => exact .nil _
  | append_singleton bits b ih =>
    rw [List.length_append, List.length_singleton] at h
    have hcell : cellLengths kind t (bits ++ [b]) =
        cellLengths kind t bits ++ (beforeValue kind t ++ valueOf t b :: afterValue kind t) := by
      simp [cellLengths]
    rw [hcell]
    exact (ih (by omega)).append ((silent_beforeValue ht).append
      (.cons (fsmStep_value_of_not_last ht hn h) (silent_afterValue ht)))

/-- From any state, a frame of the decoder's own protocol that begins after the sentinel leaves it awaiting the value of a bit. -/
theorem silent_lengthsUpTo (hn : n ≤ 48) (h : bits.length < n) (x : Decoder n) :
    Silent kind t rs (sentinel :: lengthsUpTo kind t bits) x (taken n (valueState kind) bits) :=
  (silent_lead ht x).append ((silent_cells ht hn h).append (silent_beforeValue ht))

end

/-! ### What was sent, read back from the buffer (R130, R140, R146 to R149) -/

theorem setWidth_lowField {w len : Nat} (x : BitVec w) (h : x.toNat < 2 ^ len) :
    (x.extractLsb' 0 len).setWidth w = x := by
  apply BitVec.eq_of_toNat_eq
  rw [BitVec.toNat_setWidth, toNat_lowField, Nat.mod_eq_of_lt h, Nat.mod_eq_of_lt x.isLt]

theorem assembleNec_necBits {c : Config} {now : Time} {rep : RepeatMemory} {a : BitVec 16} {cmd : BitVec 32} {tag : Tag}
    (hcmd : cmd.toNat < 2 ^ 8) (htag : tag = if a.toNat / 256 = 255 - a.toNat % 256 then .nec else .necExtended)
    (hen : c.tagEnabled tag = true) :
    assembleNec c now rep (bufferOf 32 (necBits a cmd)) =
      (⟨true, a, cmd.setWidth 8, now⟩, some ⟨tag, a, cmd⟩) := by
  have address : (bufferOf 32 (necBits a cmd)).extractLsb' 0 16 = a :=
    (extractLsb'_bufferOf (before := []) a 0 0 16 (List.append_assoc ..) rfl (by decide)).trans
      BitVec.extractLsb'_eq_self
  have command : (bufferOf 32 (necBits a cmd)).extractLsb' 16 8 = cmd.extractLsb' 0 8 :=
    extractLsb'_bufferOf cmd 0 16 8 rfl (length_bitsFrom ..) (by decide)
  have complement : (bufferOf 32 (necBits a cmd)).extractLsb' 24 8 = ~~~(cmd.extractLsb' 0 8) :=
    (extractLsb'_bufferOf (after := []) (~~~(cmd.extractLsb' 0 8)) 0 24 8 (List.append_nil _).symm (by simp)
      (by decide)).trans BitVec.extractLsb'_eq_self
  have hnecTag : necTag (bufferOf 32 (necBits a cmd)) = tag := by
    have byte : ∀ i, i + 8 ≤ 16 →
        (bufferOf 32 (necBits a cmd)).extractLsb' i 8 = a.extractLsb' i 8 := fun i hi => by
      have hfield := extractLsb'_extractLsb'_of_add_le (x := bufferOf 32 (necBits a cmd)) (start := 0) hi
      rw [address, Nat.zero_add] at hfield
      exact hfield.symm
    rw [necTag, byte 0 (by decide), byte 8 (by decide), htag]
    simp only [eq_not_iff_toNat, toNat_lowField, toNat_highField a (start := 8) (len := 8) (by decide)]
    rfl
  rw [assembleNec_of_enabled (by rw [command, complement]) (hnecTag.symm ▸ hen), hnecTag, address, command,
    setWidth_lowField cmd hcmd]
  rfl

theorem assemblePan_panBits (a : BitVec 16) (cmd : BitVec 32) :
    assemblePan (bufferOf 48 (panBits a cmd)) = ⟨.panasonic, a, cmd⟩ := by
  have address : (bufferOf 48 (panBits a cmd)).extractLsb' 0 16 = a :=
    (extractLsb'_bufferOf (before := []) a 0 0 16 rfl rfl (by decide)).trans BitVec.extractLsb'_eq_self
  have command : (bufferOf 48 (panBits a cmd)).extractLsb' 16 32 = cmd :=
    (extractLsb'_bufferOf (after := []) cmd 0 16 32 (List.append_nil _).symm (length_bitsFrom ..) (by decide)).trans
      BitVec.extractLsb'_eq_self
  rw [assemblePan, address, command]

section
variable {a : BitVec 16} {cmd : BitVec 32}

theorem assembleSony8_sony8Bits (hcmd : cmd.toNat < 2 ^ 8) :
    assembleSony8 (bufferOf 8 (sony8Bits cmd)) = ⟨.sony8, 0#16, cmd⟩ := by
  have command : (bufferOf 8 (sony8Bits cmd)).extractLsb' 0 8 = cmd.extractLsb' 0 8 :=
    extractLsb'_bufferOf (before := []) (after := []) cmd 0 0 8 (List.append_nil _).symm rfl (by decide)
  rw [BitVec.extractLsb'_eq_self] at command
  rw [assembleSony8, command, setWidth_lowField cmd hcmd]

theorem assembleSony12_sony12Bits (ha : a.toNat < 2 ^ 5) (hcmd : cmd.toNat < 2 ^ 7) :
    assembleSony12 (bufferOf 12 (sony12Bits a cmd)) = ⟨.sony12, a, cmd⟩ := by
  have command : (bufferOf 12 (sony12Bits a cmd)).extractLsb' 0 7 = cmd.extractLsb' 0 7 :=
    extractLsb'_bufferOf (before := []) cmd 0 0 7 rfl rfl (by decide)
  have address : (bufferOf 12 (sony12Bits a cmd)).extractLsb' 7 5 = a.extractLsb' 0 5 :=
    extractLsb'_bufferOf (after := []) a 0 7 5 (List.append_nil _).symm (length_bitsFrom ..) (by decide)
  rw [assembleSony12, address, command, setWidth_lowField a ha, setWidth_lowField cmd hcmd]

theorem assembleSony15_sony15Bits (ha : a.toNat < 2 ^ 8) (hcmd : cmd.toNat < 2 ^ 7) :
    assembleSony15 (bufferOf 15 (sony15Bits a cmd)) = ⟨.sony15, a, cmd⟩ := by
  have command : (bufferOf 15 (sony15Bits a cmd)).extractLsb' 0 7 = cmd.extractLsb' 0 7 :=
    extractLsb'_bufferOf (before := []) cmd 0 0 7 rfl rfl (by decide)
  have address : (bufferOf 15 (sony15Bits a cmd)).extractLsb' 7 8 = a.extractLsb' 0 8 :=
    extractLsb'_bufferOf (after := []) a 0 7 8 (List.append_nil _).symm (length_bitsFrom ..) (by decide)
  rw [assembleSony15, address, command, setWidth_lowField a ha, setWidth_lowField cmd hcmd]

theorem assembleSony20_sony20Bits (ha : a.toNat < 2 ^ 5) (hcmd : cmd.toNat < 2 ^ 15) :
    assembleSony20 (bufferOf 20 (sony20Bits a cmd)) = ⟨.sony20, a, cmd⟩ := by
  have command : (bufferOf 20 (sony20Bits a cmd)).extractLsb' 0 7 = cmd.extractLsb' 0 7 :=
    extractLsb'_bufferOf (before := []) cmd 0 0 7 (List.append_assoc ..) rfl (by decide)
  have address : (bufferOf 20 (sony20Bits a cmd)).extractLsb' 7 5 = a.extractLsb' 0 5 :=
    extractLsb'_bufferOf a 0 7 5 rfl (length_bitsFrom ..) (by decide)
  have extension : (bufferOf 20 (sony20Bits a cmd)).extractLsb' 12 8 = cmd.extractLsb' 7 8 :=
    extractLsb'_bufferOf (after := []) cmd 7 12 8 (List.append_nil _).symm (by simp) (by decide)
  have joined : cmd.extractLsb' 7 8 ++ cmd.extractLsb' 0 7 = cmd.extractLsb' 0 15 :=
    ((extractLsb'_eq_append_iff cmd 0 _ _).2 ⟨rfl, rfl⟩).symm
  rw [assembleSony20, address, command, extension, joined, setWidth_lowField a ha, setWidth_lowField cmd hcmd]

end

/-! ### The default tables: each reads its own frames, and none hears another's lead mark (R114, R115, R204) -/

theorem standard_readsItself (p : Proto) : ReadsItself ((Config.standard 0#16).timing p) where
  leadMark := by cases p <;> decide
  leadSpace := by cases p <;> decide
  half := by cases p <;> decide
  bit := by cases p <;> decide
  leadMark_lt := by cases p <;> decide
  leadSpace_plain := by cases p <;> decide
  half_plain := by cases p <;> decide
  value_plain := by cases p <;> decide

theorem readsItself_of_eq {c : Config} {p : Proto} (h : c.timing p = (Config.standard 0#16).timing p) :
    ReadsItself (c.timing p) :=
  h ▸ standard_readsItself p

/-- No duration of the list is a lead mark for this table. -/
def Deaf (t : Timing) (ds : List Duration) : Prop := ∀ d ∈ ds, t.leadMark.window.contains d = false

/-- The lengths that make up a frame before its trailing mark. -/
def nominals (t : Timing) : List Duration := [t.leadMark.nominal, t.leadSpace.nominal, t.half.nominal, t.zero, t.one]

theorem deaf_append {t : Timing} {ds es : List Duration} : Deaf t (ds ++ es) ↔ Deaf t ds ∧ Deaf t es :=
  List.forall_mem_append

theorem deaf_iff_all {t : Timing} {ds : List Duration} :
    Deaf t ds ↔ (ds.all fun d => !t.leadMark.window.contains d) = true := by
  simp [Deaf]

theorem deaf_nominals_of_ne (p q : Proto) :
    p ≠ q → Deaf ((Config.standard 0#16).timing p) (nominals ((Config.standard 0#16).timing q)) := by
  rw [deaf_iff_all]
  cases p <;> cases q <;> decide

theorem mem_nominals_of_mem {kind : Kind} {t : Timing} {bits : List Bool} {b : Bool} {d : Duration}
    (h : d ∈ lengthsUpTo kind t bits ++ [valueOf t b]) : d ∈ nominals t := by
  have hvalue : ∀ v, valueOf t v ∈ nominals t := fun v => by cases v <;> simp [valueOf, nominals]
  have hbefore : ∀ e ∈ beforeValue kind t, e ∈ nominals t := by cases kind <;> simp [beforeValue, nominals]
  have hafter : ∀ e ∈ afterValue kind t, e ∈ nominals t := by cases kind <;> simp [afterValue, nominals]
  simp only [lengthsUpTo, cellLengths, List.mem_append, List.mem_cons, List.mem_flatMap, List.not_mem_nil, or_false] at h
  obtain (rfl | rfl | ⟨v, -, h | rfl | h⟩ | h) | rfl := h
  · simp [nominals]
  · simp [nominals]
  · exact hbefore d h
  · exact hvalue v
  · exact hafter d h
  · exact hbefore d h
  · exact hvalue b

section
variable {n : Nat} {kind : Kind} {t : Timing} {rs : Option Window}

theorem fsmStep_idle_of_deaf {d : Duration} (h : t.leadMark.window.contains d = false) :
    fsmStep kind t rs d (Decoder.idle : Decoder n) = (Decoder.idle, .nothing) :=
  fsmStep_resets_of_below_timeout fun hto => fsmStep_of_idle hto h rfl

/-- After the sentinel a decoder that hears no lead mark stays in IDLE. -/
theorem silent_of_deaf {ds : List Duration} (h : Deaf t ds) (x : Decoder n) :
    Silent kind t rs (sentinel :: ds) x Decoder.idle := by
  have stays : Silent kind t rs ds (Decoder.idle : Decoder n) Decoder.idle := by
    induction ds with
    | nil => exact .nil _
    | cons d ds ih =>
      have hd := h d List.mem_cons_self
      exact .cons (fsmStep_idle_of_deaf hd) (ih fun e he => h e (List.mem_cons_of_mem d he))
  exact .cons (fsmStep_sentinel x) stays

end

/-! ### The decoders of the other protocols (R163, R204) -/

section
variable {c : Config}

theorem nec_eq_of_enabled (h : c.defaultOrOff .nec = true) (hen : c.necEnabled = true) :
    c.nec = (Config.standard 0#16).nec := by
  simpa [Config.defaultOrOff, hen] using h

theorem pan_eq_of_enabled (h : c.defaultOrOff .pan = true) (hen : c.tagEnabled .panasonic = true) :
    c.pan = (Config.standard 0#16).pan := by
  simpa [Config.defaultOrOff, hen] using h

theorem sony_eq_of_enabled {u : Tag} (hu : u ∈ [Tag.sony8, .sony12, .sony15, .sony20]) (h : c.defaultOrOff .sony = true)
    (hen : c.tagEnabled u = true) : c.sony = (Config.standard 0#16).sony := by
  rw [Config.defaultOrOff, Bool.or_eq_true, decide_eq_true_iff] at h
  refine h.resolve_right fun hoff => ?_
  have := List.all_eq_true.1 hoff u hu
  simp [hen] at this

end

/-! ### What the enabled decoders hear of a frame (R163, R204) -/

/-- The Sony decoders are idle; the other two are in the given states. -/
def Bank.sonyIdle (nec : Decoder 32) (pan : Decoder 48) : Bank :=
  ⟨nec, pan, Decoder.idle, Decoder.idle, Decoder.idle, Decoder.idle⟩

/-- The Sony decoders have taken the same bits and await the next; the other two are idle. -/
def Bank.sonyTaken (bits : List Bool) : Bank :=
  ⟨Decoder.idle, Decoder.idle, taken 8 .mark bits, taken 12 .mark bits, taken 15 .mark bits, taken 20 .mark bits⟩

section
variable {c : Config} {ds : List Duration} {b : Bank}

/-- What the NEC and the Panasonic decoder hear, beside Sony decoders that hear no lead mark. -/
theorem hears_of_sony_deaf {y : Decoder 32} {z : Decoder 48} (hsony : c.defaultOrOff .sony = true)
    (hdeaf : Deaf (Config.standard 0#16).sony ds)
    (hnec : c.necEnabled = true → Silent .dist c.nec (some c.necRepeatSpace.window) (sentinel :: ds) b.nec y)
    (hpan : c.tagEnabled .panasonic = true → Silent .dist c.pan none (sentinel :: ds) b.pan z) :
    Bank.Hears c (sentinel :: ds) b (Bank.sonyIdle y z) :=
  have deaf : ∀ {u}, u ∈ [Tag.sony8, .sony12, .sony15, .sony20] → c.tagEnabled u = true → Deaf c.sony ds :=
    fun hu hen => (sony_eq_of_enabled hu hsony hen).symm ▸ hdeaf
  { nec := hnec
    pan := hpan
    sony8 := fun hen => silent_of_deaf (deaf (by decide) hen) _
    sony12 := fun hen => silent_of_deaf (deaf (by decide) hen) _
    sony15 := fun hen => silent_of_deaf (deaf (by decide) hen) _
    sony20 := fun hen => silent_of_deaf (deaf (by decide) hen) _ }

theorem silent_nec_of_deaf (h : c.defaultOrOff .nec = true) (hdeaf : Deaf (Config.standard 0#16).nec ds) (x : Decoder 32)
    (hen : c.necEnabled = true) :
    Silent .dist c.nec (some c.necRepeatSpace.window) (sentinel :: ds) x Decoder.idle :=
  silent_of_deaf ((nec_eq_of_enabled h hen).symm ▸ hdeaf) x

theorem silent_pan_of_deaf (h : c.defaultOrOff .pan = true) (hdeaf : Deaf (Config.standard 0#16).pan ds) (x : Decoder 48)
    (hen : c.tagEnabled .panasonic = true) : Silent .dist c.pan none (sentinel :: ds) x Decoder.idle :=
  silent_of_deaf ((pan_eq_of_enabled h hen).symm ▸ hdeaf) x

/-- The widths of the four Sony buffers (R8). -/
def sonyWidths : List (Tag × Nat) := [(.sony8, 8), (.sony12, 12), (.sony15, 15), (.sony20, 20)]

/-- A Sony frame up to one of its bits, for which every enabled Sony decoder has room. -/
theorem hears_sony {bits : List Bool} (hsony : ReadsItself c.sony) (hnec : c.defaultOrOff .nec = true)
    (hpan : c.defaultOrOff .pan = true) (hdeaf : ∀ p, p ≠ .sony →
      Deaf ((Config.standard 0#16).timing p) (lengthsUpTo .width c.sony bits))
    (hroom : ∀ x ∈ sonyWidths, c.tagEnabled x.1 = true → bits.length < x.2) :
    Bank.Hears c (sentinel :: lengthsUpTo .width c.sony bits) b (Bank.sonyTaken bits) where
  nec := silent_nec_of_deaf hnec (hdeaf .nec (by decide)) _
  pan := silent_pan_of_deaf hpan (hdeaf .pan (by decide)) _
  sony8 hen := silent_lengthsUpTo hsony (by decide) (hroom (.sony8, 8) (by decide) hen) _
  sony12 hen := silent_lengthsUpTo hsony (by decide) (hroom (.sony12, 12) (by decide) hen) _
  sony15 hen := silent_lengthsUpTo hsony (by decide) (hroom (.sony15, 15) (by decide) hen) _
  sony20 hen := silent_lengthsUpTo hsony (by decide) (hroom (.sony20, 20) (by decide) hen) _

end

/-! ### The completing edge (R119, R163, R164) -/

section
variable {c : Config} {now : Time} {d : Duration}

theorem stepNec_of_fsmStep {x y : Decoder 32} {rep : RepeatMemory} {report : FsmReport 32} (hen : c.necEnabled = true)
    (h : fsmStep .dist c.nec (some c.necRepeatSpace.window) d x = (y, report)) :
    stepNec c now d x rep = (y, necResult c now rep report) := by
  obtain ⟨hoff, -⟩ | ⟨-, e⟩ := stepNec_cases c now d x rep
  · rw [hen] at hoff
    cases hoff
  · rw [e, h]

theorem stepPlain_of_fsmStep {n : Nat} {p : Proto} {tag : Tag} {assemble : BitVec n → Decoded} {x y : Decoder n}
    {report : FsmReport n} (hen : c.tagEnabled tag = true)
    (h : fsmStep p.kind (c.timing p) none d x = (y, report)) :
    stepPlain c p tag assemble d x = (y, plainResult assemble report) := by
  obtain ⟨hoff, -⟩ | ⟨-, e⟩ := stepPlain_cases c p tag assemble d x
  · rw [hen] at hoff
    cases hoff
  · rw [e, h]

/-- An idle NEC decoder, or one that is disabled, yields no result on a duration that is no lead mark. -/
theorem stepNec_result_of_deaf (h : c.defaultOrOff .nec = true) (hdeaf : Deaf (Config.standard 0#16).nec [d])
    (x : Decoder 32) (rep : RepeatMemory) : (stepNec c now d (x.move c.necEnabled Decoder.idle) rep).2.2 = none := by
  rw [stepNec_of_silent (y := Decoder.idle)]
  intro hen
  have deaf : Deaf c.nec [d] := (nec_eq_of_enabled h hen).symm ▸ hdeaf
  rw [hen, move_enabled]
  exact silent_singleton (fsmStep_idle_of_deaf (deaf d List.mem_cons_self))

theorem stepPan_result_of_deaf (h : c.defaultOrOff .pan = true) (hdeaf : Deaf (Config.standard 0#16).pan [d])
    (x : Decoder 48) :
    (stepPlain c .pan .panasonic assemblePan d (x.move (c.tagEnabled .panasonic) Decoder.idle)).2 = none := by
  rw [stepPlain_of_silent (y := Decoder.idle)]
  intro hen
  have deaf : Deaf c.pan [d] := (pan_eq_of_enabled h hen).symm ▸ hdeaf
  rw [hen, move_enabled]
  exact silent_singleton (fsmStep_idle_of_deaf (deaf d List.mem_cons_self))

/-- What a decoder yields at the end of a frame of its own protocol: the assembly of the bits, if it is enabled and they fill its buffer. -/
def frameResult (c : Config) {n : Nat} (tag : Tag) (assemble : BitVec n → Decoded) (bits : List Bool) :
    Option Decoded :=
  if c.tagEnabled tag = true ∧ bits.length = n then some (assemble (bufferOf n bits)) else none

/-- The result of the smallest Sony decoder that yields one (R164). -/
def firstSonyResult (c : Config) (bits : List Bool) : Option Decoded :=
  frameResult c .sony8 assembleSony8 bits <|> frameResult c .sony12 assembleSony12 bits <|>
    frameResult c .sony15 assembleSony15 bits <|> frameResult c .sony20 assembleSony20 bits

theorem stepSony_result {n : Nat} {tag : Tag} {assemble : BitVec n → Decoded} {bits : List Bool} {b : Bool}
    (hsony : ReadsItself c.sony) (hn : n ≤ 48) (hroom : c.tagEnabled tag = true → bits.length < n) (x : Decoder n) :
    (stepPlain c .sony tag assemble (valueOf c.sony b) (x.move (c.tagEnabled tag) (taken n .mark bits))).2 =
      frameResult c tag assemble (bits ++ [b]) := by
  have hlength : (bits ++ [b]).length = bits.length + 1 := List.length_append
  cases hen : c.tagEnabled tag with
  | false =>
    rw [stepPlain_of_silent (y := x) (by simp [hen]), frameResult, if_neg (by simp [hen])]
  | true =>
    obtain hlast | hmore := Nat.eq_or_lt_of_le (hroom hen : bits.length + 1 ≤ n)
    · have hstep : fsmStep Proto.sony.kind (c.timing .sony) none (valueOf c.sony b) (taken n .mark bits) =
          (Decoder.idle, .frame (bufferOf n (bits ++ [b]))) := fsmStep_value_of_last hsony hn hlast
      rw [move_enabled, stepPlain_of_fsmStep hen hstep, frameResult, if_pos ⟨hen, by omega⟩]
      rfl
    · have hstep : fsmStep Proto.sony.kind (c.timing .sony) none (valueOf c.sony b) (taken n .mark bits) =
          (taken n .space (bits ++ [b]), .nothing) := fsmStep_value_of_not_last hsony hn hmore
      rw [move_enabled, stepPlain_of_fsmStep hen hstep, frameResult, if_neg (by omega)]
      rfl

end

/-! ### A frame or a repeat code, delivered edge by edge (R204) -/

/-- A frame's last bit is the one that completes it. -/
theorem exists_eq_append_singleton {bits : List Bool} {k : Nat} (h : bits.length = k + 1) :
    ∃ front last, bits = front ++ [last] ∧ front.length = k := by
  obtain rfl | ⟨front, last, rfl⟩ := List.eq_nil_or_concat' bits
  · cases h
  · exact ⟨front, last, rfl, by simpa using h⟩

/-- A decoder of another protocol hears no lead mark in a frame. -/
theorem deaf_of_ne {c : Config} {q : Proto} (hq : c.timing q = (Config.standard 0#16).timing q) (bits : List Bool)
    (b : Bool) (p : Proto) (h : p ≠ q) :
    Deaf ((Config.standard 0#16).timing p) (lengthsUpTo q.kind (c.timing q) bits) ∧
      Deaf ((Config.standard 0#16).timing p) [valueOf (c.timing q) b] :=
  deaf_append.1 fun d hd => deaf_nominals_of_ne p q h d (hq ▸ mem_nominals_of_mem hd)

section
variable {s : State} {tx : Transmission} {t0 now : Time} {ds rest : List Duration} {d : Duration}
  (hfault : s.fault = none) (hnew : s.proto.getLsbD 7 = false) (hidle : s.txBusy = false)
  (hgap : 65535#32 ≤ t0 - s.lastEdge) (hnow : now = t0 + BitVec.ofNat 32 (tx.duration - lengthSum rest))
  (hdebounce : s.config.debounce ≤ now - s.lastEvent)
include hfault hnew hidle hgap hnow hdebounce

/-- Durations that the NEC decoder reads up to a report with a result, beside deaf decoders of the other protocols: the result is published. -/
theorem execAll_edges_of_nec_result {y : Decoder 32} {report : FsmReport 32} {m : RepeatMemory} {r : Decoded}
    (hlengths : tx.segments.map Segment.length = ds ++ d :: rest)
    (hpan : s.config.defaultOrOff .pan = true) (hsony : s.config.defaultOrOff .sony = true)
    (hdeaf : ∀ p, p ≠ .nec → Deaf ((Config.standard 0#16).timing p) ds) (hen : s.config.necEnabled = true)
    (hsilent : Silent .dist s.config.nec (some s.config.necRepeatSpace.window) (sentinel :: ds) s.nec y)
    (hreport : fsmStep .dist s.config.nec (some s.config.necRepeatSpace.window) d y = (Decoder.idle, report))
    (hresult : necResult s.config now s.rep report = (m, some r)) :
    ∃ t, execAll (tx.edges t0) s = .next t ∧
      t.proto = publishedProto r.tag ∧ t.addr = r.addr ∧ t.cmd = r.cmd ∧ t.lastEvent = now ∧
      t.nec = Decoder.idle ∧ t.rep = m := by
  let b := Bank.sonyIdle y Decoder.idle
  have hhears : Bank.Hears s.config (sentinel :: ds) s.bank b :=
    hears_of_sony_deaf hsony (hdeaf .sony (by decide)) (fun _ => hsilent)
      (silent_pan_of_deaf hpan (hdeaf .pan (by decide)) s.pan)
  have hstep : stepNec s.config now d (s.heard b now).nec s.rep = (Decoder.idle, m, some r) := by
    rw [State.heard, hen, move_enabled, ← hresult]
    exact stepNec_of_fsmStep hen hreport
  have hhead : (results now d (s.heard b now)).head? = some r := by
    rw [results_head?]
    exact congrArg (·.2.2 <|> _) hstep
  exact ⟨_, execAll_edges_of_result hfault hnew hidle hgap hlengths hnow hhears hhead hdebounce,
    rfl, rfl, rfl, rfl, congrArg (·.1) hstep, congrArg (·.2.1) hstep⟩

/-- A NEC frame, beside deaf decoders of the other protocols: what its assembly yields is published. -/
theorem execAll_edges_of_nec_frame {bits : List Bool} {m : RepeatMemory} {r : Decoded} (hbits : bits.length = 32)
    (htx : tx = frame s.config .nec bits) (hrest : rest = [s.config.trailNec])
    (hnec : s.config.nec = (Config.standard 0#16).nec) (hen : s.config.necEnabled = true)
    (hpan : s.config.defaultOrOff .pan = true) (hsony : s.config.defaultOrOff .sony = true)
    (hresult : assembleNec s.config now s.rep (bufferOf 32 bits) = (m, some r)) :
    ∃ t, execAll (tx.edges t0) s = .next t ∧
      t.proto = publishedProto r.tag ∧ t.addr = r.addr ∧ t.cmd = r.cmd ∧ t.lastEvent = now ∧
      t.nec = Decoder.idle ∧ t.rep = m := by
  obtain ⟨front, last, rfl, hfront⟩ := exists_eq_append_singleton hbits
  have hreads : ReadsItself s.config.nec := readsItself_of_eq (p := .nec) hnec
  have hlengths : tx.segments.map Segment.length =
      lengthsUpTo .dist s.config.nec front ++ valueOf s.config.nec last :: rest := by
    rw [htx, frame_lengths, hrest]
    rfl
  have hdeaf := deaf_of_ne (q := .nec) hnec front last
  exact execAll_edges_of_nec_result hfault hnew hidle hgap hnow hdebounce hlengths hpan hsony
    (fun p hp => (hdeaf p hp).1) hen (silent_lengthsUpTo hreads (by decide) (by omega) s.nec)
    (fsmStep_value_of_last hreads (by decide) (by omega)) hresult

/-- A Panasonic frame, beside deaf decoders of the other protocols: its assembly is published. -/
theorem execAll_edges_of_pan_frame {bits : List Bool} {r : Decoded} (hbits : bits.length = 48)
    (htx : tx = frame s.config .pan bits) (hrest : rest = [s.config.trailPan])
    (hpan : s.config.pan = (Config.standard 0#16).pan) (hen : s.config.tagEnabled .panasonic = true)
    (hnec : s.config.defaultOrOff .nec = true) (hsony : s.config.defaultOrOff .sony = true)
    (hresult : assemblePan (bufferOf 48 bits) = r) :
    ∃ t, execAll (tx.edges t0) s = .next t ∧
      t.proto = publishedProto r.tag ∧ t.addr = r.addr ∧ t.cmd = r.cmd ∧ t.lastEvent = now := by
  obtain ⟨front, last, rfl, hfront⟩ := exists_eq_append_singleton hbits
  have hreads : ReadsItself s.config.pan := readsItself_of_eq (p := .pan) hpan
  have hlengths : tx.segments.map Segment.length =
      lengthsUpTo .dist s.config.pan front ++ valueOf s.config.pan last :: rest := by
    rw [htx, frame_lengths, hrest]
    rfl
  have hdeaf := deaf_of_ne (q := .pan) hpan front last
  let b := Bank.sonyIdle Decoder.idle (taken 48 (valueState .dist) front)
  have hhears : Bank.Hears s.config (sentinel :: lengthsUpTo .dist s.config.pan front) s.bank b :=
    hears_of_sony_deaf hsony (hdeaf .sony (by decide)).1
      (silent_nec_of_deaf hnec (hdeaf .nec (by decide)).1 s.nec)
      (fun _ => silent_lengthsUpTo hreads (by decide) (by omega) s.pan)
  have hother : (stepNec s.config now (valueOf s.config.pan last) (s.heard b now).nec s.rep).2.2 = none :=
    stepNec_result_of_deaf hnec (hdeaf .nec (by decide)).2 s.nec s.rep
  have hown : stepPlain s.config .pan .panasonic assemblePan (valueOf s.config.pan last) (s.heard b now).pan =
      (Decoder.idle, some r) := by
    rw [State.heard, hen, move_enabled, ← hresult]
    exact stepPlain_of_fsmStep (p := .pan) hen (fsmStep_value_of_last hreads (by decide) (by omega))
  have hhead : (results now (valueOf s.config.pan last) (s.heard b now)).head? = some r := by
    rw [results_head?]
    exact congrArg₂ (fun o (q : _ × _) => o <|> q.2 <|> _) hother hown
  exact ⟨_, execAll_edges_of_result hfault hnew hidle hgap hlengths hnow hhears hhead hdebounce, rfl, rfl, rfl, rfl⟩

/-- A Sony frame for which every enabled Sony decoder has room, beside deaf decoders of the other protocols: the result of the smallest Sony decoder that it fills is published. -/
theorem execAll_edges_of_sony_frame {bits : List Bool} {r : Decoded} (hbits : bits ≠ [])
    (htx : tx = frame s.config .sony bits) (hrest : rest = [s.config.sony.half.nominal, s.config.trailSony])
    (hsony : s.config.sony = (Config.standard 0#16).sony) (hnec : s.config.defaultOrOff .nec = true)
    (hpan : s.config.defaultOrOff .pan = true)
    (hroom : ∀ x ∈ sonyWidths, s.config.tagEnabled x.1 = true → bits.length ≤ x.2)
    (hresult : firstSonyResult s.config bits = some r) :
    ∃ t, execAll (tx.edges t0) s = .next t ∧
      t.proto = publishedProto r.tag ∧ t.addr = r.addr ∧ t.cmd = r.cmd ∧ t.lastEvent = now := by
  obtain ⟨front, last, rfl⟩ := (List.eq_nil_or_concat' bits).resolve_left hbits
  have hreads : ReadsItself s.config.sony := readsItself_of_eq (p := .sony) hsony
  have hlengths : tx.segments.map Segment.length =
      lengthsUpTo .width s.config.sony front ++ valueOf s.config.sony last :: rest := by
    rw [htx, frame_lengths, hrest]
    rfl
  have hdeaf := deaf_of_ne (q := .sony) hsony front last
  have hfront : ∀ x ∈ sonyWidths, s.config.tagEnabled x.1 = true → front.length < x.2 := fun x hx hen => by
    have hle := hroom x hx hen
    rwa [List.length_append] at hle
  have hhears := hears_sony (b := s.bank) hreads hnec hpan (fun p hp => (hdeaf p hp).1) hfront
  have hhead : (results now (valueOf s.config.sony last) (s.heard (Bank.sonyTaken front) now)).head? = some r := by
    have nec := stepNec_result_of_deaf (now := now) (d := valueOf s.config.sony last) hnec
      (hdeaf .nec (by decide)).2 s.nec s.rep
    have pan := stepPan_result_of_deaf (d := valueOf s.config.sony last) hpan (hdeaf .pan (by decide)).2 s.pan
    have sony8 := stepSony_result (assemble := assembleSony8) (b := last) hreads (by decide)
      (hfront (.sony8, 8) (by decide)) s.sony8
    have sony12 := stepSony_result (assemble := assembleSony12) (b := last) hreads (by decide)
      (hfront (.sony12, 12) (by decide)) s.sony12
    have sony15 := stepSony_result (assemble := assembleSony15) (b := last) hreads (by decide)
      (hfront (.sony15, 15) (by decide)) s.sony15
    have sony20 := stepSony_result (assemble := assembleSony20) (b := last) hreads (by decide)
      (hfront (.sony20, 20) (by decide)) s.sony20
    rw [results_head?]
    simp only [State.heard, Bank.sonyTaken, nec, pan, sony8, sony12, sony15, sony20]
    exact hresult
  exact ⟨_, execAll_edges_of_result hfault hnew hidle hgap hlengths hnow hhears hhead hdebounce, rfl, rfl, rfl, rfl⟩

end

/-! ### The statements (R204) -/

theorem necEnabled_of_tagEnabled {c : Config} {tag : Tag} (htag : tag = .nec ∨ tag = .necExtended ∨ tag = .necRepeat)
    (hen : c.tagEnabled tag = true) : c.necEnabled = true := by
  obtain rfl | rfl | rfl := htag <;> simp [Config.necEnabled, hen]

/-- Settles O43: the NEC decoder takes the 32 bits that were sent and reports them at the start of the trailing mark; the assembly reads the address and the command back from them. -/
theorem necRoundTrip : Obligations.NecRoundTrip := by
  intro s a c t0 tag tx hfault hnew hidle hnec htrail hpan hsony htag hen hc hgap htx hdebounce
  have hfamily : tag = .nec ∨ tag = .necExtended := htag ▸ ite_eq_or_eq ..
  have hframe : tx = frame s.config .nec (necBits a c) := by
    rw [envelope_code] at htx
    obtain rfl | rfl := hfamily <;> exact (Option.some.inj htx).symm
  obtain ⟨t, hexec, hproto, haddr, hcmd, hevent, hdone, hrep⟩ := execAll_edges_of_nec_frame (rest := [560#16])
    hfault hnew hidle hgap (by simp [lengthSum]) hdebounce (length_necBits a c) hframe (by rw [htrail]) hnec
    (necEnabled_of_tagEnabled (hfamily.imp_right .inl) hen) hpan hsony (assembleNec_necBits hc htag hen)
  exact ⟨t, hexec, hproto.trans (publishedProto_eq tag), haddr, hcmd, hevent, hdone, hevent.symm ▸ hrep⟩

/-- Settles O46: the NEC decoder reports the repeat code at the end of the repeat space, and the memory answers with what it holds. -/
theorem necRepeatRoundTrip : Obligations.NecRepeatRoundTrip := by
  intro s a c t0 tx hfault hnew hidle hnec hspace htrail hpan hsony hen hvalid hwindow hgap htx hdebounce
  have hlengths : tx.segments.map Segment.length = [9000#16] ++ 2250#16 :: [560#16] := by
    rw [← Option.some.inj htx, repeatFrame, hnec, hspace, htrail]
    rfl
  have hnow : t0 + 11250#32 = t0 + BitVec.ofNat 32 (tx.duration - lengthSum [560#16]) := by
    simp [duration_eq_lengthSum, hlengths, lengthSum]
  have hlead : Silent .dist s.config.nec (some s.config.necRepeatSpace.window) [sentinel, 9000#16] s.nec
      ⟨.lead, 0#6, 0#32⟩ :=
    .cons (fsmStep_sentinel s.nec) (silent_singleton (hnec ▸ fsmStep_of_leadMark (by decide) (by decide)))
  have hreport : fsmStep .dist s.config.nec (some s.config.necRepeatSpace.window) 2250#16
      (⟨.lead, 0#6, 0#32⟩ : Decoder 32) = (Decoder.idle, .repeatCode) := by
    rw [hnec, hspace]
    decide
  have hdeaf : ∀ p, p ≠ .nec → Deaf ((Config.standard 0#16).timing p) [9000#16] := fun p hp d hd =>
    deaf_nominals_of_ne p .nec hp d (List.mem_singleton.1 hd ▸ List.mem_cons_self)
  obtain ⟨t, hexec, hproto, haddr, hcmd, hevent, -, hrep⟩ := execAll_edges_of_nec_result hfault hnew hidle hgap hnow
    hdebounce hlengths hpan hsony hdeaf (necEnabled_of_tagEnabled (.inr (.inr rfl)) hen) hlead hreport
    (necRepeat_of_fires hen hvalid hwindow)
  have hpublished : publishedProto .necRepeat = 0x84#8 := by decide
  exact ⟨t, hexec, hproto.trans hpublished, haddr, hcmd, hevent, hrep⟩

/-- Settles O44: the Panasonic decoder takes the 48 bits that were sent, and the assembly reads the address and the command back from them. -/
theorem panasonicRoundTrip : Obligations.PanasonicRoundTrip := by
  intro s a c t0 tx hfault hnew hidle hpan htrail hen hnec hsony hgap htx hdebounce
  have hpublished : publishedProto .panasonic = 0x85#8 := by decide
  rw [← hpublished]
  exact execAll_edges_of_pan_frame (rest := [432#16]) hfault hnew hidle hgap (by simp [lengthSum]) hdebounce
    (length_panBits a c) (Option.some.inj htx).symm (by rw [htrail]) hpan hen hnec hsony (assemblePan_panBits a c)

/-- The addresses and commands that a Sony frame can carry (R204). -/
def SonyCarries (tag : Tag) (a : BitVec 16) (cmd : BitVec 32) : Prop :=
  tag = .sony8 ∧ a = 0#16 ∧ cmd.toNat < 2 ^ 8 ∨ tag = .sony12 ∧ a.toNat < 2 ^ 5 ∧ cmd.toNat < 2 ^ 7 ∨
    tag = .sony15 ∧ a.toNat < 2 ^ 8 ∧ cmd.toNat < 2 ^ 7 ∨ tag = .sony20 ∧ a.toNat < 2 ^ 5 ∧ cmd.toNat < 2 ^ 15

/-- With no smaller Sony decoder enabled, every enabled one has room for the frame, and its own decoder is the first that it fills. -/
theorem exists_sony_frame {c : Config} {tag : Tag} {a : BitVec 16} {cmd : BitVec 32} (hen : c.tagEnabled tag = true)
    (hsmaller : ∀ u ∈ [Tag.sony8, .sony12, .sony15], u.code < tag.code → c.tagEnabled u = false)
    (hcarries : SonyCarries tag a cmd) :
    ∃ bits, bits ≠ [] ∧ envelopeOfTag c a cmd tag = some (frame c .sony bits) ∧
      (∀ x ∈ sonyWidths, c.tagEnabled x.1 = true → bits.length ≤ x.2) ∧
      firstSonyResult c bits = some ⟨tag, a, cmd⟩ := by
  obtain ⟨rfl, rfl, hcmd⟩ | ⟨rfl, ha, hcmd⟩ | ⟨rfl, ha, hcmd⟩ | ⟨rfl, ha, hcmd⟩ := hcarries
  · refine ⟨sony8Bits cmd, by simp [← List.length_pos_iff], rfl, by simp [sonyWidths], ?_⟩
    simp [firstSonyResult, frameResult, hen, assembleSony8_sony8Bits hcmd]
  · have off8 := hsmaller .sony8 (by decide) (by decide)
    refine ⟨sony12Bits a cmd, by simp [← List.length_pos_iff], rfl, by simp [sonyWidths, off8], ?_⟩
    simp [firstSonyResult, frameResult, hen, off8, assembleSony12_sony12Bits ha hcmd]
  · have off8 := hsmaller .sony8 (by decide) (by decide)
    have off12 := hsmaller .sony12 (by decide) (by decide)
    refine ⟨sony15Bits a cmd, by simp [← List.length_pos_iff], rfl, by simp [sonyWidths, off8, off12], ?_⟩
    simp [firstSonyResult, frameResult, hen, off8, off12, assembleSony15_sony15Bits ha hcmd]
  · have off8 := hsmaller .sony8 (by decide) (by decide)
    have off12 := hsmaller .sony12 (by decide) (by decide)
    have off15 := hsmaller .sony15 (by decide) (by decide)
    refine ⟨sony20Bits a cmd, by simp [← List.length_pos_iff], rfl, by simp [sonyWidths, off8, off12, off15], ?_⟩
    simp [firstSonyResult, frameResult, hen, off8, off12, off15, assembleSony20_sony20Bits ha hcmd]

/-- Settles O45: the smallest enabled Sony decoder is the one whose buffer the frame fills; the larger ones have taken the same bits and report nothing. -/
theorem sonyRoundTrip : Obligations.SonyRoundTrip := by
  intro s a c t0 tag tx hfault hnew hidle hsony htrail hnec hpan hen hsmaller hdomain hgap htx hdebounce
  obtain ⟨bits, hbits, henvelope, hroom, hresult⟩ := exists_sony_frame hen hsmaller hdomain
  rw [envelope_code, henvelope] at htx
  rw [← publishedProto_eq]
  exact execAll_edges_of_sony_frame (rest := [600#16, 600#16]) hfault hnew hidle hgap (by simp [lengthSum]) hdebounce
    hbits (Option.some.inj htx).symm (by rw [hsony, htrail]; rfl) hsony hnec hpan hroom hresult

end Sys2Proof.Machine

/-! PROOFS. The stops of the block (60_exceptions.md): the words that a turn refuses (R85, R223), the turn of a stuck agent (R226), and the fault that no operation passes (R224). -/

namespace Sys2Proof.Machine

/-! ### The words a turn refuses (R81, R85) -/

theorem issue_of_invalid {a : Agent} {w : CommandWord} {s : State} {e : DecodeError} (hdec : decode w = .error e) :
    issue a w s = .refused (.invalidWord e) := by
  simp only [issue, hdec]

theorem issue_of_foreign {a : Agent} {w : CommandWord} {s : State} {i : Instr} (hdec : decode w = .ok i)
    (hown : owner i ≠ a) : issue a w s = .refused (.notOwner w) := by
  simp only [issue, hdec, if_pos hown]

/-! ### The turn of a stuck agent (R226) -/

/-- A valid word of an operation that is not enabled stays with its owner, and the turn passes. -/
theorem issue_of_not_enabled {a : Agent} {w : CommandWord} {s : State} {i : Instr} (hdec : decode w = .ok i)
    (hown : owner i = a) (hen : enabled i s = false) : issue a w s = .next s.passTurn := by
  simp only [issue, hdec, hown, ne_eq, not_true_eq_false, if_false, hen, Bool.false_eq_true]

theorem passTurn_eq {s : State} {a : Agent} {rest : List Agent} (hturns : s.turns = a :: rest) :
    s.passTurn = { s with turns := rest } := by
  simp only [State.passTurn, hturns, List.tail_cons]

/-- R70 read the other way: with FAULT clear, SEND while busy and TX_DONE while idle are the operations that wait. -/
theorem enabled_eq_false_iff {i : Instr} {s : State} :
    enabled i s = false ↔
      (∃ sel addr cmd, i = .send sel addr cmd) ∧ s.txBusy = true ∨ i = .txdone ∧ s.txBusy = false := by
  cases i <;> simp [enabled]

/-! ### The fault gate (R224) -/

/-- Every operation, RESET included, runs behind the fault gate. -/
theorem exists_exec_eq_whileUnfaulted (i : Instr) (s : State) : ∃ op, exec i s = whileUnfaulted s op := by
  cases i <;> exact ⟨_, rfl⟩

theorem exec_of_faulted {s : State} {f : Fault} (hf : s.fault = some f) (i : Instr) : exec i s = .fault f := by
  obtain ⟨op, hexec⟩ := exists_exec_eq_whileUnfaulted i s
  rw [hexec, whileUnfaulted_of_set hf]

theorem step_of_faulted {s : State} {f : Fault} (hf : s.fault = some f) (hwf : s.config.wellFormed = true) :
    step s = .fault f := by
  simp only [step, advance, hwf, if_true, whileUnfaulted_of_set hf]

/-! ### The statements -/

/-- Settles O7: the step issues the word, and the issue of an operation that is not enabled passes the turn and no more. -/
theorem stuckAgentKeepsItsWord : Obligations.StuckAgentKeepsItsWord := by
  intro s a rest w ws i hwf hf hturns hq hdec hown hstuck
  calc step s = issue a w s := step_eq_issue hwf hf hturns hq
    _ = .next s.passTurn := issue_of_not_enabled hdec hown (enabled_eq_false_iff.2 hstuck)
    _ = .next { s with turns := rest } := by rw [passTurn_eq hturns]

/-- Settles O8: the step issues the word, and the issue refuses what does not decode and what another agent owns. -/
theorem stepRefusesInvalidAndForeignWords : Obligations.StepRefusesInvalidAndForeignWords := by
  intro s a rest w ws hwf hf hturns hq
  rw [step_eq_issue hwf hf hturns hq]
  exact ⟨fun e => issue_of_invalid, fun i => issue_of_foreign⟩

/-- Settles O9: every operation, and the turn of a well-formed configuration, is behind the fault gate. -/
theorem faultIsSticky : Obligations.FaultIsSticky :=
  fun _ _ hf => ⟨exec_of_faulted hf, step_of_faulted hf⟩

end Sys2Proof.Machine

/-! PROOFS. Reset (70_reset_and_hazards.md): the state that RESET leaves (R250, R252), and the invariant at power-on (R251). -/

namespace Sys2Proof.Machine

/-! ### RESET (R250, R252) -/

/-- An abort writes the recorded events alone (R250). -/
theorem State.abortTx_eq (s : State) :
    s.abortTx = { s with txEvents := s.txEvents ++ if s.txBusy = true then [.abort] else [] } := by
  by_cases hbusy : s.txBusy = true
  · rw [State.abortTx, if_pos hbusy, if_pos hbusy, State.emit]
  · rw [State.abortTx, if_neg hbusy, if_neg hbusy, List.append_nil]

/-- With FAULT clear, the reset table over the registers is power-on with the same configuration, except for the model's own records, the words and the turns (R48). -/
theorem State.resetRegisters_of_unfaulted {s : State} (hfault : s.fault = none) :
    s.resetRegisters = { State.powerOn s.config with
      responses := s.responses
      txEvents := s.txEvents
      inbox := s.inbox
      turns := s.turns } := by
  simp only [State.resetRegisters, State.powerOn, hfault]

/-- Settles O49: an abort writes the events alone, and leaves FAULT clear, so the registers are reset to power-on. -/
theorem resetRestoresEveryRegister : Obligations.ResetRestoresEveryRegister := by
  intro s hfault
  have hclear : s.abortTx.fault = none := s.abortTx_fault.trans hfault
  refine execReset_next.2 ⟨hfault, ?_⟩
  rw [State.resetRegisters_of_unfaulted hclear, s.abortTx_eq]

/-! ### The invariant at power-on (R48, R251) -/

/-- Power-on leaves nothing for the reset table to change. -/
theorem State.resetRegisters_powerOn (c : Config) : (State.powerOn c).resetRegisters = State.powerOn c := rfl

theorem Inv.powerOn (c : Config) : Inv (State.powerOn c) :=
  State.resetRegisters_powerOn c ▸ Inv.resetRegisters (State.powerOn c)

/-- Settles O55: power-on holds the reset table, which meets the invariant, and State.reset is one power-on. -/
theorem theInvariantHoldsAtPowerOn : Obligations.TheInvariantHoldsAtPowerOn :=
  ⟨Inv.powerOn, Inv.powerOn Config.atReset⟩

end Sys2Proof.Machine
